-- ==== Sys2Proof/Word.lean ====
section
/-! DEFINITION. The words of the block (spec 00_scope R10): one name per width the spec's registers, stores and
ports have. Bit 0 is the least significant bit of every word; `u(v)` is `v.toNat` and `s(v)` is `v.toInt`. -/

namespace Sys2Proof

/-- Words of `FMT_IN`: the port `x_in`, the registers `xin` and `xg` (R54). -/
abbrev InWord := BitVec 16

/-- Words of `FMT_RR`: the registers `xw`, `q`, `r` and the constants `INV_LN2`, `LN2` (R56). -/
abbrev RrWord := BitVec 24

/-- Words of `FMT_CORDIC`: the registers `x`, `y`, `z`, `e`, the entries of `ATANH`, the constant `KINV` (R57). -/
abbrev CordicWord := BitVec 32

/-- Words of `FMT_OUT`: the register `eo` and the register and port `y_out` (R55). -/
abbrev OutWord := BitVec 24

/-- The signed integer `k`, eight bits (R58). -/
abbrev KWord := BitVec 8

/-- One micro-operation word, one entry of `UROM` (R61). -/
abbrev MicroWord := BitVec 8

/-- The micro-program counter's values, the indices of `UROM` (R24). -/
abbrev Upc := BitVec 6

/-- The index field of `ROT` (R61, R62). -/
abbrev RotIndex := BitVec 5

end Sys2Proof
end

