-- ==== Sys2Proof/Config.lean ====
section
/-! DEFINITION. What is fixed when the hardware is built (R8), and the free values: constants without a body, so that
nothing proved can lean on what they are. The raw words of the stores are in Sys2Proof/Machine/Stores.lean. -/

namespace Sys2Proof

/-- The stage count `N` of this hardware: the highest rotation index (R8). -/
def Config.stageCount : Nat := 15

/-- The repeat-index set `R` of this hardware (R8, R103). -/
def Config.repeatSet : List Nat := [4, 13]

/-- FREE VALUE. What a register that reset does not drive holds after the reset edge number `edge`; `reg` numbers the
register (R33, R156: "no value"). Log entry 2. -/
opaque Config.unspecified (w edge reg : Nat) : BitVec w

/-- FREE VALUE. What the host drives on `rst` at the edge number `edge` (R129, R140). Log entry 3. -/
opaque Config.hostRst (edge : Nat) : Bool

/-- FREE VALUE. What the host drives on `start` at the edge number `edge` (R129, R140). Log entry 3. -/
opaque Config.hostStart (edge : Nat) : Bool

/-- FREE VALUE. What the host drives on `x_in` at the edge number `edge` (R129, R140). Log entry 3. -/
opaque Config.hostXIn (edge : Nat) : InWord

end Sys2Proof
end

