-- ==== Sys2Proof/Syntax.lean ====
section
/-! DEFINITION. The instructions: one constructor per row of spec/opcode_table.json, nine micro-operations (R63) and
the port-level operation `EVAL` (R60). Beside them the two kinds of code word an instruction is read from, and the one
reason a code word is rejected. -/

namespace Sys2Proof

/-- The ten rows of the opcode table. -/
inductive Instr where
  /-- `GUARD`: clamp the input, set the sentinel (R72). -/
  | guard
  /-- `WIDEN`: widen the guarded input to `FMT_RR` (R78). -/
  | widen
  /-- `MULQ`: q = x·(1/ln2) (R86). -/
  | mulq
  /-- `FLOORK`: k = floor(q) by truncate and correct (R87). -/
  | floork
  /-- `RESID`: r = x − k·ln2 (R90). -/
  | resid
  /-- `INIT`: x = 1/K, y = 0, z = r (R108). -/
  | init
  /-- `ROT i`: one pseudo-rotation at index i (R109). -/
  | rot (idx : RotIndex)
  /-- `SUM`: e = x + y, clamp, narrow (R114). -/
  | sum
  /-- `RECON`: shift by k, deliver, end (R124). -/
  | recon
  /-- `EVAL`: the host's request to evaluate the operand word on `x_in` (R60, R126, R131). -/
  | eval (operand : InWord)
  deriving DecidableEq, Repr

/-- Where an instruction is read from: a `UROM` entry (R61) or the port `x_in` in a cycle that requests (R60). -/
inductive CodeWord where
  | micro (w : MicroWord)
  | port (w : InWord)
  deriving DecidableEq, Repr

/-- Why a code word is no instruction: it is a reserved micro-operation word (R64). -/
inductive DecodeError where
  | reservedMicroop (w : MicroWord)
  deriving DecidableEq, Repr

/-- One row of the opcode map of R63. -/
structure OpcodeRow where
  mnemonic : String
  code : MicroWord
  mask : MicroWord
  deriving DecidableEq, Repr

end Sys2Proof
end

