-- ==== Sys2Proof/WellFormed.lean ====
section
/-! DEFINITION. Which terms of `Instr` are instructions: every one but `ROT 0` and `ROT 31`, whose words are reserved
(R64, R113). All 65,536 operand words of `EVAL` are legal (R60, R73). -/

namespace Sys2Proof

/-- The term is an instruction of the map of R63. -/
def Instr.wf : Instr → Bool
  | .guard => true
  | .widen => true
  | .mulq => true
  | .floork => true
  | .resid => true
  | .init => true
  | .rot idx => decide (1 ≤ idx.toNat) && decide (idx.toNat ≤ 30)
  | .sum => true
  | .recon => true
  | .eval _ => true

end Sys2Proof
end

