-- ==== Sys2Proof/Decode.lean ====
section
/-! DEFINITION. The decoder (R61 to R64, R69), total on every code word, which rejects a reserved word by name; the
encoder, written from the same rules; the opcode map as data; the assembler's notation (R65). -/

namespace Sys2Proof

/-- The legal rotation indices (R61: "legal values 1..30"). -/
def legalIndex (idx : RotIndex) : Bool :=
  decide (1 ≤ idx.toNat) && decide (idx.toNat ≤ 30)

/-- The function codes of format F (R63): bits 6:0 of a word whose bit 7 is 0. -/
def functionCode (fn : BitVec 7) : Option Instr :=
  match fn.toNat with
  | 1 => some .guard
  | 2 => some .widen
  | 3 => some .mulq
  | 4 => some .floork
  | 5 => some .resid
  | 6 => some .init
  | 7 => some .sum
  | 8 => some .recon
  | _ => none

/-- Format T (R61): bits 6:5 must be 00 and bits 4:0 are the index. -/
def rotationCode (w : MicroWord) : Option Instr :=
  if w.extractLsb' 5 2 = 0 ∧ legalIndex (w.extractLsb' 0 5) = true then
    some (.rot (w.extractLsb' 0 5))
  else none

/-- Decoding one micro-operation word: bit 7 tells the two formats apart (R61). -/
def decodeMicro (w : MicroWord) : Except DecodeError Instr :=
  match (if w.getLsbD 7 then rotationCode w else functionCode (w.extractLsb' 0 7)) with
  | some i => .ok i
  | none => .error (.reservedMicroop w)

/-- The decoder: a `UROM` entry by the opcode map (R63), a requested operand word as `EVAL` (R60). -/
def decode : CodeWord → Except DecodeError Instr
  | .micro w => decodeMicro w
  | .port w => .ok (.eval w)

/-- The code word of an instruction (R60, R63); for `ROT i` it is `0x80 | i` (R109). -/
def encode : Instr → CodeWord
  | .guard => .micro 0x01
  | .widen => .micro 0x02
  | .mulq => .micro 0x03
  | .floork => .micro 0x04
  | .resid => .micro 0x05
  | .init => .micro 0x06
  | .rot idx => .micro (0x80 ||| idx.setWidth 8)
  | .sum => .micro 0x07
  | .recon => .micro 0x08
  | .eval operand => .port operand

/-- The verdicts on a stretch of micro-program bytes, one word each (R61: one length, so no length is ever found). -/
def decodeBytes (bytes : List MicroWord) : List (Except DecodeError Instr) :=
  bytes.map decodeMicro

/-- The bytes of a list of micro-operations; `EVAL` has no micro-operation word. -/
def encodeBytes (program : List Instr) : List MicroWord :=
  program.filterMap fun i =>
    match encode i with
    | .micro w => some w
    | .port _ => none

/-- The opcode map of R63, the nine rows of micro-operation words. -/
def opcodeTable : List OpcodeRow :=
  [ ⟨"GUARD", 0x01, 0xFF⟩, ⟨"WIDEN", 0x02, 0xFF⟩, ⟨"MULQ", 0x03, 0xFF⟩, ⟨"FLOORK", 0x04, 0xFF⟩,
    ⟨"RESID", 0x05, 0xFF⟩, ⟨"INIT", 0x06, 0xFF⟩, ⟨"SUM", 0x07, 0xFF⟩, ⟨"RECON", 0x08, 0xFF⟩,
    ⟨"ROT", 0x80, 0xE0⟩ ]

/-- A word fits a row when `(w & mask) = match` and, for `ROT`, `1 ≤ u(w[4:0]) ≤ 30` (R63). -/
def rowFits (row : OpcodeRow) (w : MicroWord) : Bool :=
  decide (w &&& row.mask = row.code) &&
    (decide (row.mnemonic ≠ "ROT") || legalIndex (w.extractLsb' 0 5))

/-- The mnemonic of an instruction, as the opcode table spells it (R63, R65). -/
def mnemonic : Instr → String
  | .guard => "GUARD"
  | .widen => "WIDEN"
  | .mulq => "MULQ"
  | .floork => "FLOORK"
  | .resid => "RESID"
  | .init => "INIT"
  | .rot _ => "ROT"
  | .sum => "SUM"
  | .recon => "RECON"
  | .eval _ => "EVAL"

/-- One line of assembler: the mnemonic, and for `ROT` a space and the index in decimal (R65). -/
def assembler : Instr → String
  | .rot idx => "ROT " ++ toString idx.toNat
  | i => mnemonic i

/-- The instruction the decoder reads from the `nbits` bits `w`, numbered as spec/opcode_table.json numbers them: a row
of at most eight bits is a micro-operation word, a row of up to sixteen the operand word of `EVAL`. Log entry 16. -/
def decodeTableWord (nbits w : Nat) : Option Instr :=
  if nbits ≤ 8 then (decode (.micro (BitVec.ofNat 8 w))).toOption
  else if nbits ≤ 16 then (decode (.port (BitVec.ofNat 16 w))).toOption
  else none

end Sys2Proof
end

