-- ==== Sys2Proof/Machine/Arith.lean ====
section
/-! DEFINITION. The pseudocode primitives of R12 on words and integers. A quotient `n / d` of integers by a positive
`d` is `floor(n / d)` in Lean, which is the spec's `floor`. -/

namespace Sys2Proof.Machine

/-- `wrap_W(n)`: the W-bit word congruent to `n` modulo 2^W (R10). -/
def wrap (W : Nat) (n : Int) : BitVec W := BitVec.ofInt W n

/-- `asr_W(v, n) = wrap_W(floor(s(v) / 2^n))`, the arithmetic right shift (R12). -/
def asr {W : Nat} (v : BitVec W) (n : Nat) : BitVec W := wrap W (v.toInt / 2 ^ n)

/-- `lsr_W(v, n) = wrap_W(floor(u(v) / 2^n))`, the logical right shift (R12). -/
def lsr {W : Nat} (v : BitVec W) (n : Nat) : BitVec W := wrap W ((v.toNat : Int) / 2 ^ n)

/-- `shl_W(v, n) = wrap_W(u(v)·2^n)`, the left shift (R12). -/
def shl {W : Nat} (v : BitVec W) (n : Nat) : BitVec W := wrap W ((v.toNat : Int) * 2 ^ n)

/-- `trunc0(n / d)`: the quotient with its fraction dropped toward zero (R12). -/
def trunc0 (n d : Int) : Int := n.tdiv d

/-- `wrap_W(s(a) + s(b))`, the addition of R13. -/
def addWrap {W : Nat} (a b : BitVec W) : BitVec W := wrap W (a.toInt + b.toInt)

/-- `wrap_W(s(a) - s(b))`, the subtraction of R13. -/
def subWrap {W : Nat} (a b : BitVec W) : BitVec W := wrap W (a.toInt - b.toInt)

end Sys2Proof.Machine
end

