-- ==== Sys2Proof/Machine/State.lean ====
section
/-! DEFINITION. The state of one instance of the block (R20), as plain data, the outcomes a step can stop with, and the
state after reset (R34, R156). -/

namespace Sys2Proof.Machine

/-- What the host drives on the input ports at one rising edge of `clk` (R129). -/
structure PortInputs where
  rst : Bool
  start : Bool
  x_in : InWord
  deriving DecidableEq, Repr

/-- What the host reads on the output ports after an edge (R129, R171). -/
structure PortOutputs where
  busy : Bool
  done : Bool
  y_out : OutWord
  deriving DecidableEq, Repr

/-- The 64-entry store `UROM` (R38, R42): the (index, byte) pairs that differ from its constant contents, indices
strictly rising. Log entry 5. -/
abbrev Memory := List Host.Cell

/-- The vector registers x, y and the residual register z of the CORDIC core (R21). -/
structure CordicRegs where
  x : CordicWord
  y : CordicWord
  z : CordicWord
  deriving DecidableEq, Repr

/-- The implementation parameters a model may take as arguments (R8, decision D21): the stage count `N`, the repeat set
`R` and the word `KINV_RAW`. `Params.legal` holds them to the bounds of R9. -/
structure Params where
  stageCount : Nat
  repeatSet : List Nat
  kinv : CordicWord
  deriving DecidableEq, Repr

/-- The complete state of one instance: the sixteen elements of R20, then the model's own four fields. A one-bit flag
is a `Bool`, 1 being `true` (log entry 14). -/
structure State where
  /-- the input word as accepted -/
  xin : InWord
  /-- the guarded input -/
  xg : InWord
  /-- the guard's sentinel: the zero-output shortcut applies (R25) -/
  zf : Bool
  /-- the widened guarded input -/
  xw : RrWord
  /-- the quotient x·(1/ln2) -/
  q : RrWord
  /-- the integer k -/
  k : KWord
  /-- the residual -/
  r : RrWord
  /-- vector register -/
  x : CordicWord
  /-- vector register -/
  y : CordicWord
  /-- residual register -/
  z : CordicWord
  /-- the unclamped sum x + y, kept for observation -/
  e : CordicWord
  /-- the clamped sum, narrowed -/
  eo : OutWord
  /-- the result register and output port (R23) -/
  y_out : OutWord
  /-- the micro-program counter (R24) -/
  upc : Upc
  /-- a transaction is in progress (R27) -/
  busy : Bool
  /-- `y_out` holds the result of the last transaction (R27) -/
  done : Bool
  /-- MODEL'S OWN: the contents of `UROM`. Log entry 5. -/
  urom : Memory
  /-- MODEL'S OWN: the word `MemRead(CONST, KINV)`, the parameter `KINV_RAW` of R8. Log entry 12. -/
  kinvRaw : CordicWord
  /-- MODEL'S OWN: what the host drives at the coming edges, the next edge first. Log entry 3. -/
  inputs : List PortInputs
  /-- MODEL'S OWN: how many edges have passed, the argument of the free values. Log entry 4. -/
  edge : Nat
  deriving DecidableEq, Repr

/-- What happens at one rising edge (R130): exactly one of these. A legal word is an instruction to run, be it fetched
from `UROM` (step) or requested at the port (accept). -/
inductive EdgeEvent where
  | reset
  | run (i : Instr)
  | reserved (w : MicroWord)
  | idle
  deriving DecidableEq, Repr

/-- The block has no exception, trap or fault of any kind (R141: "The complete table of exception causes is the empty
table"; R147), so no step raises one and this type has no constructor. Log entry 11. -/
inductive Fault where
  deriving DecidableEq, Repr

/-- Why a step gives no next state. Neither is an outcome of the hardware. -/
inductive Refusal where
  /-- raised by `exec` for an instruction that has no meaning yet; none is left. Safe: the model stops. -/
  | notModelled (mnemonic : String)
  /-- `refuse(reserved_microop)` (R64, R132): raised by `step` when the fetched `UROM` entry is a reserved word, and by
  the meaning of `ROT` on the ill-formed terms `ROT 0` and `ROT 31`. Safe: the model stops; it cannot happen with the
  constant `UROM`. Log entry 7. -/
  | reservedMicroop (word : MicroWord)
  deriving DecidableEq, Repr

/-- The machine right after reset (R34, R156): the four driven elements as the spec says; the stores their
constant contents (R159). The twelve registers the spec gives no reset value hold zero: DESIGN CHOICE, log entry 1. -/
def State.reset : State :=
  { xin := 0, xg := 0, zf := false, xw := 0, q := 0, k := 0, r := 0, x := 0, y := 0, z := 0, e := 0, eo := 0,
    y_out := 0, upc := 0, busy := false, done := false, urom := [], kinvRaw := 0x26A3D0E4,
    inputs := [], edge := 0 }

end Sys2Proof.Machine
end

