-- ==== Sys2Proof/Machine/Operands.lean ====
section
/-! DEFINITION. The operands: fixed-point formats and what a word denotes in one (R11, R53 to R58), the conversions
between them (R77 to R80), the index operand of `ROT` (R62). -/

namespace Sys2Proof.Machine

/-- A fixed-point format `Q(W, I, signed)` or `Q(W, I, unsigned)`; `I` counts the sign bit (R11). -/
structure Format where
  width : Nat
  intBits : Nat
  signed : Bool
  deriving DecidableEq, Repr

/-- `FMT_IN = Q(16, 4, signed)` (R54). -/
abbrev fmtIn : Format := ⟨16, 4, true⟩

/-- `FMT_OUT = Q(24, 1, unsigned)` (R55). -/
abbrev fmtOut : Format := ⟨24, 1, false⟩

/-- `FMT_RR = Q(24, 8, signed)` (R56). -/
abbrev fmtRr : Format := ⟨24, 8, true⟩

/-- `FMT_CORDIC = Q(32, 3, signed)` (R57). -/
abbrev fmtCordic : Format := ⟨32, 3, true⟩

/-- The fraction bits `F = W - I` of a format (R11). -/
def Format.fracBits (f : Format) : Nat := f.width - f.intBits

/-- The integer a raw word denotes: two's complement in a signed format, unsigned otherwise (R11). -/
def Format.raw (f : Format) (w : BitVec f.width) : Int :=
  if f.signed then w.toInt else (w.toNat : Int)

/-- The number a word denotes, `raw / 2^F` (R11). -/
def Format.value (f : Format) (w : BitVec f.width) : Rat :=
  (f.raw w : Rat) / (2 : Rat) ^ f.fracBits

/-- The general law of conversion (R77): append zero fraction bits or drop them by `floor`, then keep the low bits. -/
def convert (src dst : Format) (w : BitVec src.width) : BitVec dst.width :=
  if src.fracBits ≤ dst.fracBits then
    wrap dst.width (src.raw w * 2 ^ (dst.fracBits - src.fracBits))
  else
    wrap dst.width (src.raw w / 2 ^ (src.fracBits - dst.fracBits))

/-- `widen_in_to_rr`: `wrap_24(s(xg) * 16)` (R78). -/
def widenInToRr (v : InWord) : RrWord := wrap 24 (v.toInt * 16)

/-- `narrow_rr_to_cordic(r) = wrap_32(s(r) · 8192)` (R79). -/
def narrowRrToCordic (r : RrWord) : CordicWord := wrap 32 (r.toInt * 8192)

/-- `narrow_cordic_to_out(e) = wrap_24(floor(u(e) / 64))` (R80). -/
def narrowCordicToOut (e : CordicWord) : OutWord := wrap 24 ((e.toNat : Int) / 64)

/-- The operand of `ROT`: the unsigned integer in the index field, neither extended nor scaled (R62). -/
def rotOperand (idx : RotIndex) : Nat := idx.toNat

end Sys2Proof.Machine
end

