-- ==== Sys2Proof/Machine/Flags.lean ====
section
/-! DEFINITION. The conditions the block computes: the guard's sentinel, which is stored in `zf` (R25), and the wires
that are not stored, the rotation direction d (R26) and the tests of `GUARD`, `FLOORK` and `SUM`. -/

namespace Sys2Proof.Machine

/-- The sentinel: the input is below -8.0, `s(xin) < -32768` (R72). Never true of a 16-bit word (R74). -/
def zeroShortcut (xin : InWord) : Bool := decide (xin.toInt < -32768)

/-- The guard's second test: the input is above 0, `s(xin) > 0` (R72). -/
def aboveDomain (xin : InWord) : Bool := decide (0 < xin.toInt)

/-- `FLOORK`'s test "the truncated value exceeds q": `kt·65536 > s(q)` (R87). -/
def truncationExceeds (kt : Int) (q : RrWord) : Bool := decide (q.toInt < kt * 65536)

/-- The direction `d = (z ≥ 0)` of a rotation, a wire (R26, R109). -/
def direction (z : CordicWord) : Bool := decide (0 ≤ z.toInt)

/-- `SUM`'s test `s(t) < 0` (R114). -/
def negativeSum (t : CordicWord) : Bool := decide (t.toInt < 0)

end Sys2Proof.Machine
end

