-- ==== Sys2Proof/Machine/Stores.lean ====
section
/-! DEFINITION. The three read-only stores `ATANH`, `CONST` and `UROM` (R38 to R42), their constant contents, and the
reads of them (R39). `UROM` is held in the state as the entries that differ from its constant (log entry 5), so that
a model of another micro-program is a state like any other; the operations below keep that list canonical. -/

namespace Sys2Proof.Machine

/-- The 31 raw words of the atanh table, index 0 first (R98): `floor(atanh(2^-i)·2^29)`, entry 0 the placeholder. -/
def atanhTable : List CordicWord :=
  [0x00000000, 0x1193EA7A, 0x082C577D, 0x04056247, 0x0200AB11, 0x01001558, 0x008002AA, 0x00400055] ++
  [0x0020000A, 0x00100001, 0x00080000, 0x00040000, 0x00020000, 0x00010000, 0x00008000, 0x00004000] ++
  [0x00002000, 0x00001000, 0x00000800, 0x00000400, 0x00000200, 0x00000100, 0x00000080, 0x00000040] ++
  [0x00000020, 0x00000010, 0x00000008, 0x00000004, 0x00000002, 0x00000001, 0x00000000]

/-- `MemRead(ATANH, i)` (R39): entry `i`, for an index 0 to 30; index 31 and above is outside the table (R46). -/
def memReadAtanh (i : Nat) : Option CordicWord := atanhTable[i]?

/-- Entry `i` of the table for a legal rotation index; outside the table, where no legal `ROT` reads, 0. -/
def atanhWord (i : Nat) : CordicWord := (memReadAtanh i).getD 0

/-- The gain-inverse constant of this hardware, `KINV_RAW`, `FMT_CORDIC` (R41, R101). `MemRead(CONST, KINV)` is the field
`State.kinvRaw`, which holds it in the state after reset (log entry 12). -/
def kinv : CordicWord := 0x26A3D0E4

/-- `MemRead(CONST, INV_LN2)`: 1/ln2, `FMT_RR` (R41, R84). -/
def invLn2 : RrWord := 0x017154

/-- `MemRead(CONST, LN2)`: ln2, `FMT_RR` (R41, R85). -/
def ln2 : RrWord := 0x00B172

/-- The 25 bytes of the default micro-program (R66). -/
def defaultProgramBytes : List MicroWord :=
  [0x01, 0x02, 0x03, 0x04, 0x05, 0x06] ++
  [0x81, 0x82, 0x83, 0x84, 0x84, 0x85, 0x86, 0x87, 0x88, 0x89, 0x8A, 0x8B, 0x8C, 0x8D, 0x8D, 0x8E, 0x8F] ++
  [0x07, 0x08]

/-- What an unlisted index of `UROM` reads as: its constant contents (R42), the default micro-program and then 0x00. -/
def uromConstant (a : Nat) : MicroWord := (defaultProgramBytes[a]?).getD 0x00

/-- `MemRead(UROM, a)` (R39). -/
def Memory.read (m : Memory) (a : Upc) : MicroWord :=
  match m.find? (fun c => c.1 == a.toNat) with
  | some c => c.2
  | none => uromConstant a.toNat

/-- The list with the entry of index `a` set to `b`, kept in rising order. -/
def Memory.put : Memory → Nat → MicroWord → Memory
  | [], a, b => [(a, b)]
  | c :: m, a, b =>
    if a < c.1 then (a, b) :: c :: m
    else if a = c.1 then (a, b) :: m
    else c :: Memory.put m a b

/-- The list without the entry of index `a`. -/
def Memory.drop (m : Memory) (a : Nat) : Memory := m.filter (fun c => c.1 != a)

/-- `UROM` with entry `a` holding `b`. No instruction does this (R38); it stands for the choice of another store. -/
def Memory.write (m : Memory) (a : Upc) (b : MicroWord) : Memory :=
  if b = uromConstant a.toNat then Memory.drop m a.toNat else Memory.put m a.toNat b

/-- The canonical form: indices strictly rising and inside the store, no entry equal to the constant it hides. -/
abbrev Memory.wf (m : Memory) : Prop :=
  m.Pairwise (fun c d => c.1 < d.1) ∧ ∀ c ∈ m, c.1 < 64 ∧ c.2 ≠ uromConstant c.1

end Sys2Proof.Machine
end

