-- ==== Sys2Proof/Machine/Ops.lean ====
section
/-! DEFINITION. The named operations over the registers: the ports at an edge, the event of an edge (R130), the writes
the micro-operations share, accept (R131), the end of a transaction (R133), reset (R156).

TAKING AN EXCEPTION AND RETURNING FROM ONE: the block has neither. "There is no trap entry: no state is saved anywhere"
(R147) and "There is no trap return" (R148), so there is no such operation here. -/

namespace Sys2Proof.Machine

/-- What the host drives at edge number `edge` when no input is listed: free wires (log entry 3). -/
def hostPins (edge : Nat) : PortInputs :=
  { rst := Config.hostRst edge, start := Config.hostStart edge, x_in := Config.hostXIn edge }

/-- What the input ports carry at the coming edge. -/
def State.pins (s : State) : PortInputs :=
  match s.inputs with
  | p :: _ => p
  | [] => hostPins s.edge

/-- What the input ports carry `n` edges after the coming one. -/
def State.pinsAt (s : State) (n : Nat) : PortInputs :=
  (s.inputs[n]?).getD (hostPins (s.edge + n))

/-- The edge has passed: its inputs are consumed and the model's edge counter advances. No register changes. -/
def State.tick (s : State) : State := { s with inputs := s.inputs.tail, edge := s.edge + 1 }

/-- The output ports, which are the registers themselves (R129). -/
def State.outputs (s : State) : PortOutputs := { busy := s.busy, done := s.done, y_out := s.y_out }

/-- The fetch of a step: `w = MemRead(UROM, upc)` (R132). -/
def State.fetch (s : State) : MicroWord := s.urom.read s.upc

/-- The event of a decoded code word: run a legal one, refuse a reserved one (R132). -/
def eventOf (c : CodeWord) : EdgeEvent :=
  match decode c with
  | .ok i => .run i
  | .error (.reservedMicroop w) => .reserved w

/-- The event of the edge, chosen in the order reset, step, accept, idle (R130). -/
def State.event (s : State) (p : PortInputs) : EdgeEvent :=
  if p.rst then .reset
  else if s.busy then eventOf (.micro s.fetch)
  else if p.start then eventOf (.port p.x_in)
  else .idle

/-- `upc <- wrap_6(upc + 1)`, of every micro-operation that does not end the transaction (R24, R133). -/
def State.advance (s : State) : State := { s with upc := s.upc + 1 }

/-- The end of a transaction with result `v`: `y_out <- v`, `done <- 1`, `busy <- 0`, `upc` as it is (R133). -/
def State.finish (s : State) (v : OutWord) : State := { s with y_out := v, done := true, busy := false }

/-- Accept of the operand `v` (R131). -/
def State.accept (s : State) (v : InWord) : State := { s with xin := v, busy := true, done := false, upc := 0 }

/-- The writes of `GUARD` to its two registers. -/
def State.setGuard (s : State) (xg : InWord) (zf : Bool) : State := { s with xg := xg, zf := zf }

/-- `xw <- v`. -/
def State.setXw (s : State) (v : RrWord) : State := { s with xw := v }

/-- `q <- v`. -/
def State.setQ (s : State) (v : RrWord) : State := { s with q := v }

/-- `k <- v`. -/
def State.setK (s : State) (v : KWord) : State := { s with k := v }

/-- `r <- v`. -/
def State.setR (s : State) (v : RrWord) : State := { s with r := v }

/-- The CORDIC registers, read together (R12: all reads before all writes). -/
def State.cordicRegs (s : State) : CordicRegs := { x := s.x, y := s.y, z := s.z }

/-- The CORDIC registers, written together (R12). -/
def State.setCordicRegs (s : State) (c : CordicRegs) : State := { s with x := c.x, y := c.y, z := c.z }

/-- `e <- t`, `eo <- v`. -/
def State.setSum (s : State) (t : CordicWord) (v : OutWord) : State := { s with e := t, eo := v }

/-- `UROM` holds `m`. -/
def State.withUrom (s : State) (m : Memory) : State := { s with urom := m }

/-- The reset edge (R156): the four driven elements get their values; what the twelve datapath registers hold is from
then on unspecified, a free value each (log entry 2); the stores are untouched. -/
def State.resetEdge (s : State) : State :=
  { s with
    xin := Config.unspecified 16 s.edge 0
    xg := Config.unspecified 16 s.edge 1
    zf := (Config.unspecified 1 s.edge 2).getLsbD 0
    xw := Config.unspecified 24 s.edge 3
    q := Config.unspecified 24 s.edge 4
    k := Config.unspecified 8 s.edge 5
    r := Config.unspecified 24 s.edge 6
    x := Config.unspecified 32 s.edge 7
    y := Config.unspecified 32 s.edge 8
    z := Config.unspecified 32 s.edge 9
    e := Config.unspecified 32 s.edge 10
    eo := Config.unspecified 24 s.edge 11
    y_out := 0
    upc := 0
    busy := false
    done := false }

end Sys2Proof.Machine
end

