-- ==== Sys2Proof/Machine/Convert.lean ====
section
/-! DEFINITION. The format conversion that is a micro-operation of its own: `WIDEN` (R78). -/

namespace Sys2Proof.Machine

/-- `WIDEN` (R78): `xw <- wrap_24(s(xg) * 16)`. -/
def execWiden (s : State) : Host.Outcome State Fault Refusal :=
  .next (s.setXw (widenInToRr s.xg)).advance

end Sys2Proof.Machine
end

