-- ==== Sys2Proof/Machine/Cordic.lean ====
section
/-! DEFINITION. The Hyperbolic CORDIC Core: `INIT`, `ROT i`, `SUM` (R107 to R122). -/

namespace Sys2Proof.Machine

/-- What `INIT` writes (R108), for a gain-inverse word `g` (this hardware's is `kinv`). -/
def initialRegs (g : CordicWord) (r : RrWord) : CordicRegs :=
  { x := g, y := 0x00000000, z := narrowRrToCordic r }

/-- One pseudo-rotation at index `i` (R109). Every right side reads the registers as they were at its start. -/
def rotate (i : Nat) (c : CordicRegs) : CordicRegs :=
  if direction c.z then
    { x := addWrap c.x (asr c.y i), y := addWrap c.y (asr c.x i), z := subWrap c.z (atanhWord i) }
  else
    { x := subWrap c.x (asr c.y i), y := subWrap c.y (asr c.x i), z := addWrap c.z (atanhWord i) }

/-- The sum `t = wrap_32(s(x) + s(y))` (R114). -/
def cordicSum (x y : CordicWord) : CordicWord := addWrap x y

/-- The clamp of a negative sum to zero (R114). -/
def clampSum (t : CordicWord) : CordicWord := if negativeSum t then 0x00000000 else t

/-- `INIT` (R108): the gain-inverse word is `MemRead(CONST, KINV)`. -/
def execInit (s : State) : Host.Outcome State Fault Refusal :=
  .next (s.setCordicRegs (initialRegs s.kinvRaw s.r)).advance

/-- `ROT i` (R109) for a legal index; `ROT 0` and `ROT 31` are reserved words and have no meaning (R64, R113). -/
def execRot (idx : RotIndex) (s : State) : Host.Outcome State Fault Refusal :=
  if legalIndex idx then
    .next (s.setCordicRegs (rotate (rotOperand idx) s.cordicRegs)).advance
  else
    .refused (.reservedMicroop (0x80 ||| idx.setWidth 8))

/-- `SUM` (R114): `e` keeps the unclamped sum, `eo` the clamped sum narrowed. -/
def execSum (s : State) : Host.Outcome State Fault Refusal :=
  .next (s.setSum (cordicSum s.x s.y) (narrowCordicToOut (clampSum (cordicSum s.x s.y)))).advance

end Sys2Proof.Machine
end

