-- ==== Sys2Proof/Machine/Guard.lean ====
section
/-! DEFINITION. The Input Guard: the micro-operation `GUARD` (R71 to R76). -/

namespace Sys2Proof.Machine

/-- The clamped operand of R72: -8.0 below the domain, 0 above it, the operand itself inside. -/
def guardedOperand (xin : InWord) : InWord :=
  if zeroShortcut xin then 0x8000 else if aboveDomain xin then 0x0000 else xin

/-- `GUARD` (R72), the three cases tested in the document's order; the first ends the transaction with result 0. -/
def execGuard (s : State) : Host.Outcome State Fault Refusal :=
  if zeroShortcut s.xin then
    .next ((s.setGuard (guardedOperand s.xin) true).finish 0x000000)
  else
    .next (s.setGuard (guardedOperand s.xin) false).advance

end Sys2Proof.Machine
end

