-- ==== Sys2Proof/Machine/Program.lean ====
section
/-! DEFINITION. Micro-programs: the rotation sequence `S(N, R)` (R104), the micro-program of any legal (N, R) (R67), the
pseudo-operations (R68); the parameters, their bounds (R8, R9), and the block built with them. -/

namespace Sys2Proof.Machine

/-- `S(N, R)`: for i from 1 to N, i once, and a second time immediately after if i is in R (R104). -/
def schedule (n : Nat) (rep : List Nat) : List Nat :=
  ((List.range n).map (· + 1)).flatMap fun i => if i ∈ rep then [i, i] else [i]

/-- The micro-operation `ROT i`. -/
def rotInstr (i : Nat) : Instr := .rot (BitVec.ofNat 5 i)

/-- `REDUCE` expands to `MULQ; FLOORK; RESID` (R68). -/
def pseudoReduce : List Instr := [.mulq, .floork, .resid]

/-- `ROT2 i` expands to `ROT i; ROT i` (R68). -/
def pseudoRot2 (i : Nat) : List Instr := [rotInstr i, rotInstr i]

/-- `CORDIC N, R` expands to `INIT`, the rotations of `S(N, R)`, `SUM` (R68). -/
def pseudoCordic (n : Nat) (rep : List Nat) : List Instr :=
  [.init] ++ (schedule n rep).map rotInstr ++ [.sum]

/-- `EVALPROG N, R` expands to `GUARD; WIDEN; REDUCE; CORDIC N, R; RECON` (R68). -/
def pseudoEvalprog (n : Nat) (rep : List Nat) : List Instr :=
  [.guard, .widen] ++ pseudoReduce ++ pseudoCordic n rep ++ [.recon]

/-- The micro-program of (N, R) (R67). -/
def microProgram (n : Nat) (rep : List Nat) : List Instr :=
  [.guard, .widen, .mulq, .floork, .resid, .init] ++ (schedule n rep).map rotInstr ++ [.sum, .recon]

/-- The bounds of R9: (c) `1 ≤ N ≤ 30`, (d) every member of `R` lies in 1..N. -/
def Params.legal (p : Params) : Bool :=
  decide (1 ≤ p.stageCount) && decide (p.stageCount ≤ 30) &&
    p.repeatSet.all fun i => decide (1 ≤ i) && decide (i ≤ p.stageCount)

/-- The parameters without the members of `R` that lie outside 1..N and have no effect (R9 (d)). -/
def Params.effective (p : Params) : Params :=
  { p with repeatSet := p.repeatSet.filter fun i => decide (1 ≤ i) && decide (i ≤ p.stageCount) }

/-- The micro-program of the parameters (R67). -/
def Params.program (p : Params) : List Instr := microProgram p.stageCount p.repeatSet

/-- The byte of entry `a` of the `UROM` that holds `program`: its bytes from entry 0 on, then 0x00 (R42). -/
def uromByte (program : List Instr) (a : Nat) : MicroWord := ((encodeBytes program)[a]?).getD 0x00

/-- The store `UROM` that holds `program`, in canonical form. -/
def uromWith (program : List Instr) : Memory :=
  (List.range 64).foldl (fun m a => m.write (BitVec.ofNat 6 a) (uromByte program a)) []

/-- The block `s` built with the parameters `p` (R8: "A model may take N, R and KINV as arguments"): `UROM` holds their
micro-program and `CONST` their gain-inverse word. None outside the bounds of R9, and none for a micro-program longer than
the 64 entries of `UROM`. No event of the machine does this. Log entry 12. -/
def State.withParams (s : State) (p : Params) : Option State :=
  if p.legal && decide (p.program.length ≤ 64) then
    some { s with urom := uromWith p.program, kinvRaw := p.kinv }
  else none

/-- The parameters of this hardware (R8). -/
def defaultParams : Params :=
  { stageCount := Config.stageCount, repeatSet := Config.repeatSet, kinv := kinv }

end Sys2Proof.Machine
end

