-- ==== Sys2Proof/Machine/RangeReducer.lean ====
section
/-! DEFINITION. The Range Reducer: `MULQ`, `FLOORK`, `RESID` (R83 to R95). -/

namespace Sys2Proof.Machine

/-- The exact integer product of `MULQ`, 32 fraction bits (R86, R16). -/
def quotientProduct (xw : RrWord) : Int := xw.toInt * invLn2.toInt

/-- `q = wrap_24(floor(prod / 65536))` (R86). -/
def quotient (xw : RrWord) : RrWord := wrap 24 (quotientProduct xw / 65536)

/-- `k` by truncate and correct (R87): `kt = trunc0(s(q) / 65536)`, one less when it exceeds q. -/
def truncateAndCorrect (q : RrWord) : KWord :=
  let kt := trunc0 q.toInt 65536
  if truncationExceeds kt q then wrap 8 (kt - 1) else wrap 8 kt

/-- `r = wrap_24(s(xw) - s(k) * LN2_RAW)` (R90). -/
def residualOf (xw : RrWord) (k : KWord) : RrWord := wrap 24 (xw.toInt - k.toInt * ln2.toInt)

/-- `MULQ` (R86). -/
def execMulq (s : State) : Host.Outcome State Fault Refusal :=
  .next (s.setQ (quotient s.xw)).advance

/-- `FLOORK` (R87). -/
def execFloork (s : State) : Host.Outcome State Fault Refusal :=
  .next (s.setK (truncateAndCorrect s.q)).advance

/-- `RESID` (R90). -/
def execResid (s : State) : Host.Outcome State Fault Refusal :=
  .next (s.setR (residualOf s.xw s.k)).advance

/-- The Range Reducer as one function of the guarded operand (R95): `k` by the floor, `r` the residual. -/
def reduce (xg : InWord) : KWord × RrWord :=
  let xw := widenInToRr xg
  let k := wrap 8 ((quotient xw).toInt / 65536)
  (k, residualOf xw k)

end Sys2Proof.Machine
end

