-- ==== Sys2Proof/Machine/Reconstructor.lean ====
section
/-! DEFINITION. The Reconstructor: `RECON` (R124, R125). -/

namespace Sys2Proof.Machine

/-- `recon(eo, k)` (R124, R125): a right shift by |k| for k below 0, a left shift by k above 0, else `eo`. -/
def reconstruct (eo : OutWord) (k : KWord) : OutWord :=
  if k.toInt < 0 then lsr eo (-k.toInt).toNat
  else if 0 < k.toInt then shl eo k.toInt.toNat
  else eo

/-- `RECON` (R124): delivers the result and ends the transaction; `upc` is left unchanged. -/
def execRecon (s : State) : Host.Outcome State Fault Refusal :=
  .next (s.finish (reconstruct s.eo s.k))

end Sys2Proof.Machine
end

