-- ==== Sys2Proof/Machine/Evaluate.lean ====
section
/-! DEFINITION. The operation `EVAL`: its meaning at the edge that requests it (R131, R135), and the function
`evaluate` from the word accepted to the word delivered (R126). -/

namespace Sys2Proof.Machine

/-- The rotations of `S(N, R)` in order, from the registers `c` (R111). -/
def rotations (idx : List Nat) (c : CordicRegs) : CordicRegs := idx.foldl (fun c i => rotate i c) c

/-- `cordic(r) = (e, eo)`: INIT, the rotations, SUM (R120), for given parameters. -/
def cordicWith (p : Params) (r : RrWord) : CordicWord × OutWord :=
  let c := rotations (schedule p.stageCount p.repeatSet) (initialRegs p.kinv r)
  let t := cordicSum c.x c.y
  (t, narrowCordicToOut (clampSum t))

/-- `cordic(r)` of this hardware (R120). -/
def cordic (r : RrWord) : CordicWord × OutWord := cordicWith defaultParams r

/-- The rules of `evaluate(v)` (R126) run with the parameters `p`, whatever they are. -/
def evaluateUnder (p : Params) (v : InWord) : OutWord :=
  if zeroShortcut v then 0x000000
  else
    let kr := reduce (guardedOperand v)
    reconstruct (cordicWith p kr.2).2 kr.1

/-- `evaluate(v)` for parameters within the bounds of R9, none for others; no accuracy is claimed but for the default
(R9 (b), decision D21). -/
def evaluateWith (p : Params) (v : InWord) : Option OutWord :=
  if p.legal then some (evaluateUnder p v) else none

/-- `evaluate(v)` of this hardware (R126). -/
def evaluate (v : InWord) : OutWord := evaluateUnder defaultParams v

/-- `EVAL` at the edge that requests it. The block accepts the operand (R131: "This is the call of evaluate(x)"); while
a transaction is in progress the request is ignored, neither queued nor remembered (R135). The result `evaluate(v)` is
delivered by the 25 micro-operations that follow (R137). Log entry 6. -/
def execEval (operand : InWord) (s : State) : Host.Outcome State Fault Refusal :=
  if s.busy then .next s else .next (s.accept operand)

end Sys2Proof.Machine
end

