-- ==== Sys2Proof/Machine/Dispatch.lean ====
section
/-! DEFINITION. One arm per constructor of `Instr`, each one direct call of the instruction's meaning. -/

namespace Sys2Proof.Machine

-- The meaning of every instruction of spec/opcode_table.json.
def exec (i : Instr) (s : State) : Host.Outcome State Fault Refusal :=
  match i with
  | .guard => Sys2Proof.Machine.execGuard s
  | .widen => Sys2Proof.Machine.execWiden s
  | .mulq => Sys2Proof.Machine.execMulq s
  | .floork => Sys2Proof.Machine.execFloork s
  | .resid => Sys2Proof.Machine.execResid s
  | .init => Sys2Proof.Machine.execInit s
  | .rot idx => Sys2Proof.Machine.execRot idx s
  | .sum => Sys2Proof.Machine.execSum s
  | .recon => Sys2Proof.Machine.execRecon s
  | .eval operand => Sys2Proof.Machine.execEval operand s

end Sys2Proof.Machine
end

