-- ==== Sys2Proof/Machine/Step.lean ====
section
/-! DEFINITION. One rising edge of `clk` (R130), and the placing of an instruction where the next edge fetches it. -/

namespace Sys2Proof.Machine

/-- One rising edge (R130 to R135, R156): the inputs of the edge are sampled and consumed, and the one event they and
`busy` choose happens. -/
def step (s : State) : Host.Outcome State Fault Refusal :=
  match s.event s.pins with
  | .reset => .next s.tick.resetEdge
  | .run i => exec i s.tick
  | .reserved w => .refused (.reservedMicroop w)
  | .idle => .next s.tick

/-- `s` with the instruction of the bits `w` placed where the next edge fetches its instruction: a micro-operation word
in entry `upc` of `UROM`, in a transaction in progress; an operand word on `x_in` with a request, in an idle block. The
coming edge is driven with `rst = 0`. Log entry 9. -/
def State.withFetchWord (s : State) (nbits w : Nat) : State :=
  if nbits ≤ 8 then
    { s with
      urom := s.urom.write s.upc (BitVec.ofNat 8 w)
      busy := true
      inputs := { rst := false, start := false, x_in := 0 } :: s.inputs.tail }
  else
    { s with
      busy := false
      inputs := { rst := false, start := true, x_in := BitVec.ofNat 16 w } :: s.inputs.tail }

end Sys2Proof.Machine
end

