-- ==== Sys2Proof/Machine/Instances.lean ====
section
/-! DEFINITION. Several instances of the block (R37, R153): each has all of its own state and its own ports, and an edge
of one instance's clock moves that instance alone. Log entry 13. -/

namespace Sys2Proof.Machine

/-- One instance: running in a state, or stopped. -/
abbrev Instance := Host.Outcome State Fault Refusal

/-- One rising edge of an instance's own clock; an instance that has stopped stays as it is. -/
def clockOne : Instance → Instance
  | .next s => step s
  | .fault f => .fault f
  | .refused r => .refused r

/-- One rising edge of the clock of instance number `n`. -/
def clockInstance (system : List Instance) (n : Nat) : List Instance := system.modify n clockOne

/-- The edges of the instances in the order of `order`, an interleaving of their clocks. -/
def clockInstances (system : List Instance) (order : List Nat) : List Instance :=
  order.foldl clockInstance system

/-- `n` edges of one instance alone. -/
def clockTimes : Nat → Instance → Instance
  | 0, i => i
  | n + 1, i => clockTimes n (clockOne i)

end Sys2Proof.Machine
end

