-- ==== Sys2Proof/Safety.lean ====
section
/-! DEFINITION. The terms the claims use: the registers by name and which of them an instruction reads and writes (the
columns of R20 and of the opcode table), the order of writes before reads (R32), what `UROM` holds, which edges are free
of reset, and the invariant of this hardware. -/

namespace Sys2Proof.Machine

/-- The sixteen elements of R20, by name. -/
inductive Reg where
  | xin | xg | zf | xw | q | k | r | x | y | z | e | eo | y_out | upc | busy | done
  deriving DecidableEq, Repr

/-- The unsigned integer a register holds; 1 for a flag that is set. -/
def State.reg (s : State) : Reg → Nat
  | .xin => s.xin.toNat
  | .xg => s.xg.toNat
  | .zf => s.zf.toNat
  | .xw => s.xw.toNat
  | .q => s.q.toNat
  | .k => s.k.toNat
  | .r => s.r.toNat
  | .x => s.x.toNat
  | .y => s.y.toNat
  | .z => s.z.toNat
  | .e => s.e.toNat
  | .eo => s.eo.toNat
  | .y_out => s.y_out.toNat
  | .upc => s.upc.toNat
  | .busy => s.busy.toNat
  | .done => s.done.toNat

/-- The registers an instruction reads, as the opcode table lists them. -/
def readsOf : Instr → List Reg
  | .guard => [.xin]
  | .widen => [.xg]
  | .mulq => [.xw]
  | .floork => [.q]
  | .resid => [.xw, .k]
  | .init => [.r]
  | .rot _ => [.x, .y, .z]
  | .sum => [.x, .y]
  | .recon => [.eo, .k]
  | .eval _ => [.busy]

/-- The registers an instruction writes on every path, but for `upc` (R20). -/
def writesOf : Instr → List Reg
  | .guard => [.xg, .zf]
  | .widen => [.xw]
  | .mulq => [.q]
  | .floork => [.k]
  | .resid => [.r]
  | .init => [.x, .y, .z]
  | .rot _ => [.x, .y, .z]
  | .sum => [.e, .eo]
  | .recon => [.y_out, .done, .busy]
  | .eval _ => []

/-- Every register an instruction may write on some path, `upc` among them (R20): the result and the handshake flags by
`GUARD` in its zero shortcut, those of accept by `EVAL`. -/
def mayWrite : Instr → List Reg
  | .guard => [.xg, .zf, .upc, .y_out, .done, .busy]
  | .widen => [.xw, .upc]
  | .mulq => [.q, .upc]
  | .floork => [.k, .upc]
  | .resid => [.r, .upc]
  | .init => [.x, .y, .z, .upc]
  | .rot _ => [.x, .y, .z, .upc]
  | .sum => [.e, .eo, .upc]
  | .recon => [.y_out, .done, .busy]
  | .eval _ => [.xin, .busy, .done, .upc]

/-- The instruction is a micro-operation, not the port-level `EVAL` (R19, R60). -/
def isMicroOperation : Instr → Bool
  | .eval _ => false
  | _ => true

/-- Each micro-operation of the list reads only registers in `written` or written before it (R32). -/
def writtenBeforeRead : List Reg → List Instr → Bool
  | _, [] => true
  | written, i :: is => (readsOf i).all (· ∈ written) && writtenBeforeRead (writesOf i ++ written) is

/-- `UROM` holds the micro-program `program` from entry 0 on (R42, R67). -/
def UromHolds (s : State) (program : List Instr) : Prop :=
  ∀ (a : Nat) (w : MicroWord), (encodeBytes program)[a]? = some w → s.urom.read (BitVec.ofNat 6 a) = w

/-- The host drives `rst = 0` at the next `n` edges. -/
def NoReset (s : State) (n : Nat) : Prop := ∀ m, m < n → (s.pinsAt m).rst = false

/-- Every entry of `UROM`, and the word `KINV` of `CONST`, reads in `t` as it reads in `s` (R48: no agent ever writes a
store). -/
def SameStore (s t : State) : Prop := (∀ a : Upc, t.urom.read a = s.urom.read a) ∧ t.kinvRaw = s.kinvRaw

/-- The stores are those of this hardware: `UROM` its constant contents (R42), `KINV` the word of R101. -/
def ThisHardware (s : State) : Prop := s.urom = [] ∧ s.kinvRaw = 0x26A3D0E4

/-- A run of `n` edges is safe when no edge of it is refused (R141: every edge has a successor). -/
def SafeRun (n : Nat) (s : State) : Prop := ∃ t : State, Host.Core.run Sys2Proof.core n s = .next t

/-- A transaction in progress: the registers hold what `upc` micro-operations of the default micro-program have made of
the accepted word (R66, and the rules of files 40 to 45). -/
def TransactionInProgress (s : State) : Prop :=
  let n := s.upc.toNat
  let xg := guardedOperand s.xin
  let kr := reduce xg
  n ≤ 24 ∧
  (1 ≤ n → s.xg = xg ∧ s.zf = false) ∧
  (2 ≤ n → s.xw = widenInToRr xg) ∧
  (3 ≤ n → s.q = quotient (widenInToRr xg)) ∧
  (4 ≤ n → s.k = kr.1) ∧
  (5 ≤ n → s.r = kr.2) ∧
  (6 ≤ n → s.cordicRegs =
    rotations ((schedule Config.stageCount Config.repeatSet).take (n - 6)) (initialRegs kinv kr.2)) ∧
  (24 ≤ n → s.e = (cordic kr.2).1 ∧ s.eo = (cordic kr.2).2)

/-- The invariant of this hardware: the stores hold their constant contents (R41, R42, R51); `busy` and `done` are never both 1
(R27); while busy, the registers are those of a transaction in progress; while `done`, `y_out` is the result of the last
accepted word (R27, R163). -/
def Inv (s : State) : Prop :=
  ThisHardware s ∧
  ¬ (s.busy = true ∧ s.done = true) ∧
  (s.busy = true → TransactionInProgress s) ∧
  (s.done = true → s.y_out = evaluate s.xin)

end Sys2Proof.Machine
end

