-- ==== Sys2Proof/Certificates/Slice0/Obligations.lean ====
section
/-! DEFINITION. The statements for the provers. `exec i s = .next t` with `t = { s with … }` says the frame: every field
not named is as before; `SameStore` says it of the stores through the model's reads. -/

open Sys2Proof Sys2Proof.Machine

/-! ## Encodings -/

/-- R63: words of the opcode map, written from its match column, and reserved words on either side of them. -/
def Obligations.SampleWordsDecode : Prop :=
  decode (.micro 0x01) = .ok .guard ∧ decode (.micro 0x02) = .ok .widen ∧ decode (.micro 0x03) = .ok .mulq ∧
  decode (.micro 0x04) = .ok .floork ∧ decode (.micro 0x05) = .ok .resid ∧ decode (.micro 0x06) = .ok .init ∧
  decode (.micro 0x07) = .ok .sum ∧ decode (.micro 0x08) = .ok .recon ∧ decode (.micro 0x81) = .ok (.rot 1) ∧
  decode (.micro 0x8D) = .ok (.rot 13) ∧ decode (.micro 0x9E) = .ok (.rot 30) ∧
  decode (.port 0xF000) = .ok (.eval 0xF000) ∧
  decode (.micro 0x80) = .error (.reservedMicroop 0x80) ∧ decode (.micro 0x9F) = .error (.reservedMicroop 0x9F) ∧
  decode (.micro 0xA1) = .error (.reservedMicroop 0xA1) ∧ decode (.micro 0x09) = .error (.reservedMicroop 0x09)

/-- R60 to R63: decoding inverts encoding on every instruction, with every operand, and every code word that decodes is
the code word of the well-formed instruction it decodes to. -/
def Obligations.DecodeInvertsEncode : Prop :=
  (∀ i : Instr, i.wf = true → decode (encode i) = .ok i) ∧
  (∀ (c : CodeWord) (i : Instr), decode c = .ok i → i.wf = true ∧ encode i = c)

/-- R69: on the 256 words the decoder returns the instruction of the one row that fits, or its verdict is that the word is
reserved; no two rows overlap. -/
def Obligations.DecoderFollowsOpcodeMap : Prop :=
  ∀ w : MicroWord,
    (∀ i, decode (.micro w) = .ok i →
      ∃ row ∈ opcodeTable, rowFits row w = true ∧ row.mnemonic = mnemonic i ∧
        ∀ row' ∈ opcodeTable, w &&& row'.mask = row'.code → row' = row) ∧
    (∀ x, decode (.micro w) = .error x → x = .reservedMicroop w ∧ ∀ row ∈ opcodeTable, rowFits row w = false)

/-- R64: a fetched reserved word, 0x00, 0x09 to 0x80 or 0x9F to 0xFF, is refused under its name, and no other word is. -/
def Obligations.ReservedWordsAreRefused : Prop :=
  ∀ s : State, s.pins.rst = false → s.busy = true →
    ((s.fetch.toNat = 0 ∨ (0x09 ≤ s.fetch.toNat ∧ s.fetch.toNat ≤ 0x80) ∨ 0x9F ≤ s.fetch.toNat) ↔
      step s = .refused (.reservedMicroop s.fetch))

/-! ## The edge -/

/-- R130 (with R132, R131, R156): at every edge exactly one of reset, step, accept, idle happens, chosen in this order. What
stands around it is the model's choice: the edge consumes its inputs and advances the edge counter, nothing else (`s.tick`,
log entries 3 and 4, DESIGN CHOICE), and the accept of the word on `x_in` is the meaning of `EVAL`, whose code word is that
word (R60; log entry 6, DEDUCED). -/
def Obligations.StepRunsTheEventOfTheEdge : Prop :=
  ∀ s : State,
    s.tick = { s with inputs := s.inputs.tail, edge := s.edge + 1 } ∧
    (s.pins.rst = true → step s = .next s.tick.resetEdge) ∧
    (s.pins.rst = false → s.busy = true → ∀ i, decode (.micro (s.urom.read s.upc)) = .ok i → step s = exec i s.tick) ∧
    (s.pins.rst = false → s.busy = true → ∀ w, decode (.micro (s.urom.read s.upc)) = .error (.reservedMicroop w) →
      step s = .refused (.reservedMicroop w)) ∧
    (s.pins.rst = false → s.busy = false → s.pins.start = true → step s = exec (.eval s.pins.x_in) s.tick) ∧
    (s.pins.rst = false → s.busy = false → s.pins.start = false → step s = .next s.tick)

/-- The model's convention (log entry 9): the word placed by `withFetchWord` is what the next edge runs, and placing it
changes nothing the fetch does not need. -/
def Obligations.PlacedWordRunsNext : Prop :=
  ∀ (s : State) (w : Nat) (i : Instr),
    (decode (.micro (BitVec.ofNat 8 w)) = .ok i →
      step (s.withFetchWord 8 w) = exec i (s.withFetchWord 8 w).tick) ∧
    step (s.withFetchWord 16 w) = exec (.eval (BitVec.ofNat 16 w)) (s.withFetchWord 16 w).tick ∧
    (∀ a : Upc, a ≠ s.upc → (s.withFetchWord 8 w).urom.read a = s.urom.read a)

/-- R156, R34, R159: at an edge with `rst = 1`, whatever the other inputs and whatever the state, the four driven elements
get their reset values and the store is untouched. Nothing is claimed of the twelve registers reset does not drive. -/
def Obligations.ResetEdgeDrivesControlState : Prop :=
  ∀ s : State, s.pins.rst = true →
    ∃ t : State, step s = .next t ∧ t.busy = false ∧ t.done = false ∧ t.y_out = 0x000000 ∧ t.upc = 0 ∧ SameStore s t ∧
      t.inputs = s.inputs.tail

/-- R157: reset during a transaction abandons it; without a new request no result is ever delivered, however long the run
goes on and however often reset is held. -/
def Obligations.ResetAbandonsTransaction : Prop :=
  ∀ (n : Nat) (s : State), s.busy = true → (s.pinsAt 0).rst = true →
    (∀ m, 1 ≤ m → m ≤ n → (s.pinsAt m).start = false) →
    ∃ t : State, Host.Core.run core (n + 1) s = .next t ∧ t.outputs = { busy := false, done := false, y_out := 0x000000 }

/-- R134: while the host neither requests nor resets, an idle block changes no register, for any number of edges. -/
def Obligations.IdleHoldsEveryRegister : Prop :=
  ∀ (n : Nat) (s : State), s.busy = false →
    (∀ m, m < n → (s.pinsAt m).rst = false ∧ (s.pinsAt m).start = false) →
    ∃ t : State, Host.Core.run core n s = .next t ∧ (∀ reg, t.reg reg = s.reg reg) ∧ SameStore s t ∧ t.outputs = s.outputs

/-- R162, R135: `x_in` is irrelevant at every edge but an accept, and `start` at every edge of a busy block. -/
def Obligations.InputsIgnoredOutsideAccept : Prop :=
  ∀ (s : State) (p p' : PortInputs) (later : List PortInputs), p'.rst = p.rst →
    (s.busy = true ∨ p.rst = true ∨ (p.start = false ∧ p'.start = false)) →
    step { s with inputs := p :: later } = step { s with inputs := p' :: later }

/-! ## The micro-operations: result and frame -/

/-- R72, R74, R76: `GUARD` clamps the operand into [-8, 0], whatever the word; the zero shortcut is dead. -/
def Obligations.GuardClampsIntoDomain : Prop :=
  decode (.micro 0x01) = .ok .guard ∧
  ∀ s : State, ∃ t, exec .guard s = .next t ∧
    t = { s with xg := t.xg, zf := false, upc := s.upc + 1 } ∧ SameStore s t ∧
    t.xg.toInt = min s.xin.toInt 0 ∧ -32768 ≤ t.xg.toInt ∧ t.xg.toInt ≤ 0

/-- R78: `WIDEN` is exact; the widened word denotes the same number. -/
def Obligations.WidenIsExact : Prop :=
  decode (.micro 0x02) = .ok .widen ∧
  ∀ s : State, ∃ t, exec .widen s = .next t ∧
    t = { s with xw := t.xw, upc := s.upc + 1 } ∧ SameStore s t ∧
    t.xw = s.xg.signExtend 20 ++ 0#4 ∧ t.xw.toInt = s.xg.toInt * 16 ∧
    fmtRr.value t.xw = fmtIn.value s.xg

/-- R86: `MULQ` takes bits 39:16 of the exact 48-bit product with 94548; no wrap for a word `WIDEN` can produce. -/
def Obligations.MulqTakesProductBits : Prop :=
  decode (.micro 0x03) = .ok .mulq ∧
  ∀ s : State, ∃ t, exec .mulq s = .next t ∧
    t = { s with q := t.q, upc := s.upc + 1 } ∧ SameStore s t ∧
    t.q = BitVec.ofInt 24 (s.xw.toInt * 94548 / 65536) ∧
    t.q = (s.xw.signExtend 48 * 94548#48).extractLsb' 16 24 ∧
    (-524288 ≤ s.xw.toInt → s.xw.toInt ≤ 524288 →
      t.q.toInt = s.xw.toInt * 94548 / 65536 ∧ -756384 ≤ t.q.toInt ∧ t.q.toInt ≤ 756384)

/-- R88: `FLOORK`, by truncation and correction, gives the floor: the signed integer in bits 23:16 of q. -/
def Obligations.FloorkIsFloor : Prop :=
  decode (.micro 0x04) = .ok .floork ∧
  ∀ s : State, ∃ t, exec .floork s = .next t ∧
    t = { s with k := t.k, upc := s.upc + 1 } ∧ SameStore s t ∧
    t.k.toInt = s.q.toInt / 65536 ∧ t.k = s.q.extractLsb' 16 8

/-- R90: `RESID` subtracts k·45426 modulo 2^24, exactly when the difference fits. -/
def Obligations.ResidSubtractsMultipleOfLn2 : Prop :=
  decode (.micro 0x05) = .ok .resid ∧
  ∀ s : State, ∃ t, exec .resid s = .next t ∧
    t = { s with r := t.r, upc := s.upc + 1 } ∧ SameStore s t ∧
    t.r = BitVec.ofInt 24 (s.xw.toInt - s.k.toInt * 45426) ∧
    t.r = s.xw - s.k.signExtend 24 * 45426#24 ∧
    (-8388608 ≤ s.xw.toInt - s.k.toInt * 45426 → s.xw.toInt - s.k.toInt * 45426 < 8388608 →
      s.xw.toInt = s.k.toInt * 45426 + t.r.toInt)

/-- R108: in this hardware, whose `KINV` is the word of R101, `INIT` starts the rotations from the gain-inverse constant,
zero and the residual, whose bits 18:0 are followed by thirteen zero bits. -/
def Obligations.InitLoadsCordicRegisters : Prop :=
  decode (.micro 0x06) = .ok .init ∧
  ∀ s : State, s.kinvRaw = 0x26A3D0E4 → ∃ t, exec .init s = .next t ∧
    t = { s with x := 0x26A3D0E4, y := 0x00000000, z := t.z, upc := s.upc + 1 } ∧ SameStore s t ∧
    t.z = BitVec.ofInt 32 (s.r.toInt * 8192) ∧ t.z = s.r.extractLsb' 0 19 ++ 0#13

/-- R8, R108: whatever word `CONST` holds as `KINV_RAW`, an argument of the model (log entry 12), `INIT` loads it. -/
def Obligations.InitReadsTheGainInverse : Prop :=
  ∀ s : State, exec .init s =
    .next { s with x := s.kinvRaw, y := 0x00000000, z := narrowRrToCordic s.r, upc := s.upc + 1 }

/-- R109: one pseudo-rotation, for every index 1 to 30: the shifted copies are of the old x and y, the direction is the
sign of the old z, the three updates are simultaneous and wrap. -/
def Obligations.RotIsPseudoRotation : Prop :=
  ∀ (s : State) (idx : RotIndex), 1 ≤ idx.toNat → idx.toNat ≤ 30 →
    decode (.micro (0x80 ||| idx.setWidth 8)) = .ok (.rot idx) ∧
    ∃ a t, memReadAtanh idx.toNat = some a ∧ exec (.rot idx) s = .next t ∧
      t = { s with x := t.x, y := t.y, z := t.z, upc := s.upc + 1 } ∧ SameStore s t ∧
      (0 ≤ s.z.toInt →
        t.x = s.x + s.y.sshiftRight idx.toNat ∧ t.y = s.y + s.x.sshiftRight idx.toNat ∧ t.z = s.z - a) ∧
      (s.z.toInt < 0 →
        t.x = s.x - s.y.sshiftRight idx.toNat ∧ t.y = s.y - s.x.sshiftRight idx.toNat ∧ t.z = s.z + a)

/-- The model's choice of log entry 7 (DEDUCED) for the terms `ROT 0` and `ROT 31`, which no word decodes to: `exec` refuses
them under the names of the words 0x80 and 0x9F. R113 and R64 say that these words are reserved and refused when fetched;
they say nothing of `exec` on a term. -/
def Obligations.RotOutsideTableIsRefused : Prop :=
  ∀ (s : State) (idx : RotIndex), idx.toNat = 0 ∨ idx.toNat = 31 →
    exec (.rot idx) s = .refused (.reservedMicroop (0x80#8 + idx.setWidth 8))

/-- R114, R80: `SUM` keeps the unclamped wrapped sum in e, and narrows the sum, clamped to zero when negative, to bits
29:6. -/
def Obligations.SumClampsAndNarrows : Prop :=
  decode (.micro 0x07) = .ok .sum ∧
  ∀ s : State, ∃ t, exec .sum s = .next t ∧
    t = { s with e := t.e, eo := t.eo, upc := s.upc + 1 } ∧ SameStore s t ∧
    t.e = s.x + s.y ∧
    (t.e.toInt < 0 → t.eo = 0x000000) ∧ (0 ≤ t.e.toInt → t.eo = t.e.extractLsb' 6 24)

/-- R124: `RECON` scales the sum by 2^k, a floor for k below 0 and the low 24 bits for k above 0, delivers it and ends the
transaction with `upc` unchanged. -/
def Obligations.ReconScalesAndEnds : Prop :=
  decode (.micro 0x08) = .ok .recon ∧
  ∀ s : State, ∃ t, exec .recon s = .next t ∧
    t = { s with y_out := t.y_out, done := true, busy := false } ∧ SameStore s t ∧
    (s.k.toInt < 0 → t.y_out.toNat = s.eo.toNat / 2 ^ (-s.k.toInt).toNat) ∧
    (s.k.toInt = 0 → t.y_out = s.eo) ∧
    (0 < s.k.toInt → t.y_out.toNat = s.eo.toNat * 2 ^ s.k.toInt.toNat % 2 ^ 24) ∧
    (s.k.toInt ≤ -24 ∨ 24 ≤ s.k.toInt → t.y_out = 0x000000)

/-! ## EVAL -/

/-- The model's choice of log entry 6 (DEDUCED; R137 allows the atomic view as well): the meaning of `EVAL` in an idle block
is the accept, which captures the operand, starts the transaction and leaves the previous result in `y_out`. Its code word
is its operand (R60). The last clause is R131: an edge with `rst = 0`, `busy = 0`, `start = 1` does it with the word on
`x_in`. -/
def Obligations.EvalAcceptsOperand : Prop :=
  (∀ (s : State) (v : InWord), s.busy = false →
    decode (.port v) = .ok (.eval v) ∧
    ∃ t, exec (.eval v) s = .next t ∧
      t = { s with xin := v, busy := true, done := false, upc := 0 } ∧ SameStore s t) ∧
  (∀ s : State, s.pins.rst = false → s.busy = false → s.pins.start = true →
    step s = .next { s.tick with xin := s.pins.x_in, busy := true, done := false, upc := 0 })

/-- The last clause is R135: a request while busy is ignored, the edge answers what it would answer without it. The first is
the model's choice of log entry 6 (DEDUCED): `exec` of `EVAL` in a busy state, where no edge dispatches to it, changes
nothing. -/
def Obligations.RequestWhileBusyIsLost : Prop :=
  ∀ (s : State) (p : PortInputs) (later : List PortInputs), s.busy = true →
    exec (.eval p.x_in) s = .next s ∧
    step { s with inputs := { p with start := true } :: later } =
      step { s with inputs := { p with start := false, x_in := 0 } :: later }

/-- R137, R126: from any idle state of this hardware, `EVAL v` and the 25 edges after it (with `rst = 0` throughout)
deliver `evaluate v`; until the last of them the block is busy and `y_out` keeps the previous result. That `EVAL` is the
accept is log entry 6 (DEDUCED); that a micro-operation takes one edge is log entry 10 (DEDUCED; R172 calls it
non-normative). -/
def Obligations.EvalDeliversEvaluate : Prop :=
  ∀ (s : State) (v : InWord), ThisHardware s → s.busy = false → NoReset s 25 →
    ∃ a, exec (.eval v) s = .next a ∧
      (∀ n, n < 25 → ∃ u : State, Host.Core.run core n a = .next u ∧
        u.outputs = { busy := true, done := false, y_out := s.y_out }) ∧
      ∃ t : State, Host.Core.run core 25 a = .next t ∧
        t.outputs = { busy := false, done := true, y_out := evaluate v } ∧ t.upc = 24 ∧ t.xin = v ∧ SameStore s t

/-- R67, R137, R8: the same for the micro-program of any stage count 1 to 30 and any repeat set, when `UROM` holds it, and
any gain-inverse word that `CONST` holds: the transaction delivers what the rules of `evaluate` give with these parameters.
That the parameters are contents of the stores is log entry 12 (DESIGN CHOICE); that the transaction takes one edge for each
micro-operation is log entry 10 (DEDUCED; R172 calls it non-normative). -/
def Obligations.AnyMicroProgramDelivers : Prop :=
  ∀ (s : State) (n : Nat) (rep : List Nat), 1 ≤ n → n ≤ 30 → (microProgram n rep).length ≤ 64 →
    UromHolds s (microProgram n rep) → s.busy = false → (s.pinsAt 0).start = true →
    NoReset s ((microProgram n rep).length + 1) →
    ∃ t : State, Host.Core.run core ((microProgram n rep).length + 1) s = .next t ∧
      t.outputs =
        { busy := false, done := true,
          y_out := evaluateUnder { stageCount := n, repeatSet := rep, kinv := s.kinvRaw } (s.pinsAt 0).x_in } ∧
      t.upc.toNat + 1 = (microProgram n rep).length ∧ SameStore s t

/-- R31, R128: the word delivered depends on the accepted word and on nothing else: not on what any register held, not on
what the host drives on `start` and `x_in` meanwhile. That it is delivered by the 26th edge rests on log entry 10 (DEDUCED;
R137, R172, R174 give the count, R172 as non-normative). -/
def Obligations.ResultDependsOnOperandOnly : Prop :=
  ∀ s s' : State, ThisHardware s → ThisHardware s' → s.busy = false → s'.busy = false →
    NoReset s 26 → NoReset s' 26 → (s.pinsAt 0).start = true → (s'.pinsAt 0).start = true →
    (s.pinsAt 0).x_in = (s'.pinsAt 0).x_in →
    ∃ t t' : State, Host.Core.run core 26 s = .next t ∧ Host.Core.run core 26 s' = .next t' ∧ t.outputs = t'.outputs

/-! ## The registers as a whole -/

/-- R20: an instruction that answers a next state changes only the registers the table lets it write. -/
def Obligations.WritesOnlyListedRegisters : Prop :=
  ∀ (i : Instr) (s t : State), exec i s = .next t →
    (∀ reg, reg ∉ mayWrite i → t.reg reg = s.reg reg) ∧ SameStore s t ∧ t.inputs = s.inputs ∧ t.edge = s.edge

/-- R20: what a micro-operation writes depends only on the registers the table lets it read, and on the constant stores. -/
def Obligations.ResultsDependOnListedReads : Prop :=
  ∀ (i : Instr) (s s' t t' : State), isMicroOperation i = true → s.kinvRaw = s'.kinvRaw →
    (∀ reg, reg ∈ readsOf i → s.reg reg = s'.reg reg) → exec i s = .next t → exec i s' = .next t' →
    ∀ reg, reg ∈ writesOf i → t.reg reg = t'.reg reg

/-- R32, for every stage count and repeat set: from an accepted word on, each register is written before it is read. -/
def Obligations.EveryRegisterWrittenBeforeRead : Prop :=
  ∀ (n : Nat) (rep : List Nat), writtenBeforeRead [.xin] (microProgram n rep) = true

/-- R133: without reset, `upc` becomes 0 at an accept, advances by one in a step that does not end the transaction, and is
otherwise left as it is. -/
def Obligations.CounterMovesOnlyForward : Prop :=
  ∀ s t : State, step s = .next t → s.pins.rst = false →
    (s.busy = false → s.pins.start = true → t.upc = 0) ∧
    (s.busy = true → t.busy = true → t.upc = s.upc + 1) ∧
    (s.busy = true → t.busy = false → t.upc = s.upc ∧ t.done = true) ∧
    (s.busy = false → s.pins.start = false → t.upc = s.upc)

/-- R163: without reset, `y_out` changes only at the edge that ends a transaction. -/
def Obligations.OnlyTheEndWritesTheResult : Prop :=
  ∀ s t : State, step s = .next t → s.pins.rst = false → t.y_out ≠ s.y_out →
    s.busy = true ∧ t.busy = false ∧ t.done = true

/-- R27, for every state and every contents of `UROM`: `busy` and `done` are never both 1 after an edge if they were not
before it. -/
def Obligations.BusyAndDoneExclusive : Prop :=
  ∀ s t : State, step s = .next t → ¬ (s.busy = true ∧ s.done = true) → ¬ (t.busy = true ∧ t.done = true)

/-- R48, R51: no edge changes what any entry of `UROM` or the word `KINV` reads as, and `UROM` keeps its canonical form. -/
def Obligations.StoreIsNeverWritten : Prop :=
  ∀ s t : State, step s = .next t → SameStore s t ∧ (s.urom.wf → t.urom.wf)

/-! ## The invariant -/

/-- Every edge keeps the invariant of this hardware, from every state that has it. -/
def Obligations.InvariantIsKept : Prop :=
  ∀ s t : State, Inv s → step s = .next t → Inv t

/-- The state after reset has the invariant. -/
def Obligations.InvariantAtReset : Prop := Inv State.reset

/-- R64, R141, R174: with the invariant every edge has a successor: nothing is ever refused, in runs of any length. -/
def Obligations.InvariantRulesOutRefusal : Prop :=
  ∀ (n : Nat) (s : State), Inv s → SafeRun n s

/-! ## The data path: ranges, exactness, constants -/

/-- R92: over the guarded operands k lies in -12 to 0, r in -2 to 45422, and x = k·ln2 + r exactly. -/
def Obligations.ReducerRanges : Prop :=
  ∀ xg : InWord, xg.toInt ≤ 0 →
    -12 ≤ (reduce xg).1.toInt ∧ (reduce xg).1.toInt ≤ 0 ∧
    -2 ≤ (reduce xg).2.toInt ∧ (reduce xg).2.toInt ≤ 45422 ∧
    xg.toInt * 16 = (reduce xg).1.toInt * 45426 + (reduce xg).2.toInt

/-- R92, R93, R165: the residual is negative for exactly one guarded operand, 0xB25E. -/
def Obligations.OneNegativeResidual : Prop :=
  ∀ xg : InWord, xg.toInt ≤ 0 → ((reduce xg).2.toInt < 0 ↔ xg = 0xB25E)

/-- R118, R165: no rotation of a transaction wraps: for every residual the reducer can give and every rotation of the
schedule, the three updates are exact over the integers. -/
def Obligations.NoRotationWraps : Prop :=
  ∀ r : RrWord, -2 ≤ r.toInt → r.toInt ≤ 45422 →
    ∀ (m i : Nat), (schedule 15 [4, 13])[m]? = some i →
      let c := rotations ((schedule 15 [4, 13]).take m) (initialRegs kinv r)
      let d : Int := if 0 ≤ c.z.toInt then 1 else -1
      (rotate i c).x.toInt = c.x.toInt + d * (c.y.toInt / 2 ^ i) ∧
      (rotate i c).y.toInt = c.y.toInt + d * (c.x.toInt / 2 ^ i) ∧
      (rotate i c).z.toInt = c.z.toInt - d * (atanhWord i).toInt

/-- R118: after the last rotation the angle left in z is at most the last table entry used, `ATANH[15] = 16384`. -/
def Obligations.ResidualAngleConverges : Prop :=
  ∀ r : RrWord, -2 ≤ r.toInt → r.toInt ≤ 45422 →
    |(rotations (schedule 15 [4, 13]) (initialRegs kinv r)).z.toInt| ≤ 16384

/-- R118: the clamp of `SUM` never fires: the sum is positive, and here for every residual word, reachable or not. -/
def Obligations.SumIsNeverNegative : Prop :=
  ∀ r : RrWord, 0 < (cordic r).1.toInt

/-- R138: every operand above 0 gives the result of the operand 0. -/
def Obligations.PositiveOperandsSaturate : Prop :=
  ∀ v : InWord, 0 < v.toInt → evaluate v = evaluate 0x0000

/-- R115: below 2.0, shifting the 32-bit sum and narrowing after gives the word that narrowing first gives. -/
def Obligations.NarrowingAndScalingCommute : Prop :=
  ∀ (e : CordicWord) (n : Nat), e.toNat < 0x40000000 →
    narrowCordicToOut (lsr e n) = lsr (narrowCordicToOut e) n

/-- R77: the three conversions are instances of the general law of conversion between fixed-point formats. -/
def Obligations.ConversionsFollowGeneralLaw : Prop :=
  (∀ v : InWord, widenInToRr v = convert fmtIn fmtRr v) ∧
  (∀ r : RrWord, narrowRrToCordic r = convert fmtRr fmtCordic r) ∧
  (∀ e : CordicWord, narrowCordicToOut e = convert fmtCordic fmtOut e)

/-- R84, R85, R101: the three scalar constants are the truncations of 1/ln 2, of ln 2 and of the document's literal. -/
def Obligations.ScalarConstantsAreTruncated : Prop :=
  ⌊1 / Real.log 2 * 2 ^ 16⌋ = invLn2.toInt ∧ ⌊Real.log 2 * 2 ^ 16⌋ = ln2.toInt ∧
  ⌊(1.207497067763072 : ℝ) * 2 ^ 29⌋ = kinv.toInt

/-- R98: every raw word of the table, index 1 to 30, is the truncation of atanh(2^-i), here ½·ln((1+2^-i)/(1-2^-i)). -/
def Obligations.AtanhTableIsTruncated : Prop :=
  ∀ i : Nat, 1 ≤ i → i ≤ 30 →
    ⌊1 / 2 * Real.log ((1 + 1 / 2 ^ i) / (1 - 1 / 2 ^ i)) * 2 ^ 29⌋ = (atanhWord i).toInt

/-! ## Micro-programs -/

/-- R67, R68: the micro-program of any (N, R) has 8 + N + |R ∩ {1..N}| micro-operations, and `EVALPROG N, R` expands to it;
the default's bytes are the first entries of the constant `UROM`, and every entry after them is the reserved word 0x00. -/
def Obligations.MicroProgramShape : Prop :=
  (∀ (n : Nat) (rep : List Nat),
    (microProgram n rep).length = 8 + n + ((List.range n).filter (fun j => j + 1 ∈ rep)).length ∧
    pseudoEvalprog n rep = microProgram n rep) ∧
  (microProgram 15 [4, 13]).length = 25 ∧ (microProgram 30 [4, 13]).length = 40 ∧
  (∀ a : Upc, Memory.read [] a = ((encodeBytes (microProgram 15 [4, 13]))[a.toNat]?).getD 0x00)

/-- R104: the rotation sequence runs the indices 1 to N in increasing order, each once, and those of R twice; the default
is the seventeen rotations of the rule. -/
def Obligations.ScheduleRunsEachIndexInOrder : Prop :=
  (∀ (n : Nat) (rep : List Nat),
    (schedule n rep).Pairwise (· ≤ ·) ∧
    ∀ i, (schedule n rep).count i = if 1 ≤ i ∧ i ≤ n then (if i ∈ rep then 2 else 1) else 0) ∧
  schedule 15 [4, 13] = [1, 2, 3, 4, 4, 5, 6, 7, 8, 9, 10, 11, 12, 13, 13, 14, 15]

/-! ## Parameters -/

/-- R9 (c) and (d), R8, R67, R42: within the bounds `1 ≤ N ≤ 30` and `R` inside 1..N, and with a micro-program that fits,
a block is built with the parameters: its `UROM` reads as their micro-program and then 0x00, its `KINV` as theirs, no
register changes, and `evaluateWith` answers; the default parameters leave this hardware as it is. Outside the bounds there
is neither a block nor a result. That the parameters are contents of the stores is log entry 12 (DESIGN CHOICE). -/
def Obligations.ParametersAreBounded : Prop :=
  (∀ (s : State) (p : Params), 1 ≤ p.stageCount → p.stageCount ≤ 30 →
    (∀ i ∈ p.repeatSet, 1 ≤ i ∧ i ≤ p.stageCount) →
    (∀ v, evaluateWith p v = some (evaluateUnder p v)) ∧
    (p.program.length ≤ 64 →
      ∃ t, s.withParams p = some t ∧ t = { s with urom := t.urom, kinvRaw := p.kinv } ∧ t.urom.wf ∧
        UromHolds t p.program ∧ ∀ a : Upc, p.program.length ≤ a.toNat → t.urom.read a = 0x00)) ∧
  (∀ (s : State) (p : Params),
    (p.stageCount = 0 ∨ 30 < p.stageCount ∨ ∃ i ∈ p.repeatSet, i = 0 ∨ p.stageCount < i) →
    s.withParams p = none ∧ ∀ v, evaluateWith p v = none) ∧
  (∀ s : State, ThisHardware s → s.withParams defaultParams = some s)

/-- R9 (d), R104: a member of `R` outside 1..N has no effect: leaving such members out changes neither the rotation sequence
nor the micro-program nor any result, and leaves parameters within the bounds when the stage count is. -/
def Obligations.RepeatsOutsideTheStagesHaveNoEffect : Prop :=
  ∀ p : Params,
    schedule p.effective.stageCount p.effective.repeatSet = schedule p.stageCount p.repeatSet ∧
    p.effective.program = p.program ∧ (∀ v, evaluateUnder p.effective v = evaluateUnder p v) ∧
    (p.effective.legal = true ↔ 1 ≤ p.stageCount ∧ p.stageCount ≤ 30)

/-! ## Instances -/

/-- R153, R37: in a system of any instances (the model's list of log entry 13, DEDUCED), with their clock edges interleaved in
any order, each instance has the states it would have alone; an instance of this hardware that has the invariant goes on and keeps it, whatever the others are and do; and
after 26 edges of its own clock, in which it accepts and is not reset, its ports show `evaluate` of its own operand, with
its stores untouched. The count of 26 edges is log entry 10 (DEDUCED). -/
def Obligations.InstancesAreIndependent : Prop :=
  (∀ (system : List Instance) (order : List Nat) (j : Nat),
    (clockInstances system order)[j]? = (system[j]?).map (clockTimes (order.count j))) ∧
  ∀ (system : List Instance) (order : List Nat) (j : Nat) (s : State), system[j]? = some (.next s) →
    (Inv s → ∃ t : State, (clockInstances system order)[j]? = some (.next t) ∧ Inv t) ∧
    (ThisHardware s → s.busy = false → (s.pinsAt 0).start = true → NoReset s 26 → order.count j = 26 →
      ∃ t : State, (clockInstances system order)[j]? = some (.next t) ∧ SameStore s t ∧
        t.outputs = { busy := false, done := true, y_out := evaluate (s.pinsAt 0).x_in })
end

