-- ==== Sys2Proof/Laws/Arith.lean ====
section
/-! SUPPORT. What the primitives of R12 compute, in the terms of Lean's bit vectors and of exact integers. -/

namespace Sys2Proof.Machine

theorem wrap_toInt_self {W : Nat} (v : BitVec W) : wrap W v.toInt = v := BitVec.ofInt_toInt

/-- A wrap loses nothing when the integer is in the word's range. -/
theorem toInt_wrap {W : Nat} {n : Int} (hlo : -(2 : Int) ^ W ≤ 2 * n) (hhi : 2 * n < (2 : Int) ^ W) :
    (wrap W n).toInt = n := by
  rw [wrap, BitVec.toInt_ofInt, Int.bmod_eq_of_le_mul_two] <;> push_cast <;> omega

theorem toNat_wrap {W : Nat} {n : Nat} (h : n < 2 ^ W) : (wrap W (n : Int)).toNat = n := by
  rw [wrap, BitVec.ofInt_natCast, BitVec.toNat_ofNat, Nat.mod_eq_of_lt h]

theorem addWrap_eq_add {W : Nat} (a b : BitVec W) : addWrap a b = a + b := by
  rw [addWrap, wrap, BitVec.ofInt_add, BitVec.ofInt_toInt, BitVec.ofInt_toInt]

theorem subWrap_eq_sub {W : Nat} (a b : BitVec W) : subWrap a b = a - b := by
  rw [subWrap, wrap, Int.sub_eq_add_neg, BitVec.ofInt_add, BitVec.ofInt_neg, BitVec.ofInt_toInt, BitVec.ofInt_toInt,
    BitVec.sub_eq_add_neg]

theorem asr_eq_sshiftRight {W : Nat} (v : BitVec W) (n : Nat) : asr v n = v.sshiftRight n := by
  rw [asr, wrap, BitVec.sshiftRight, Int.shiftRight_eq_div_pow]
  norm_cast

theorem lsr_toNat {W : Nat} (v : BitVec W) (n : Nat) : (lsr v n).toNat = v.toNat / 2 ^ n := by
  have h : ((v.toNat : Int) / 2 ^ n) = ((v.toNat / 2 ^ n : Nat) : Int) := by push_cast; rfl
  rw [lsr, h, toNat_wrap (Nat.lt_of_le_of_lt (Nat.div_le_self _ _) v.isLt)]

theorem shl_toNat {W : Nat} (v : BitVec W) (n : Nat) : (shl v n).toNat = v.toNat * 2 ^ n % 2 ^ W := by
  have h : ((v.toNat : Int) * 2 ^ n) = ((v.toNat * 2 ^ n : Nat) : Int) := by push_cast; rfl
  rw [shl, h, wrap, BitVec.ofInt_natCast, BitVec.toNat_ofNat]

end Sys2Proof.Machine
end

