-- ==== Sys2Proof/Laws/Memory.lean ====
section
/-! SUPPORT. The laws of the store `UROM`: a read after a write, and that a write keeps the canonical form. -/

namespace Sys2Proof.Machine

@[simp] theorem Memory.read_nil (a : Upc) : Memory.read [] a = uromConstant a.toNat := rfl

theorem Memory.wf_nil : Memory.wf [] := by simp [Memory.wf]

theorem Memory.mem_put {m : Memory} {a : Nat} {b : MicroWord} {c : Host.Cell} (h : c ∈ Memory.put m a b) :
    c = (a, b) ∨ c ∈ m := by
  induction m with
  | nil => simpa [Memory.put] using h
  | cons d m ih =>
    simp only [Memory.put] at h
    split at h
    · simpa using h
    · split at h
      · rcases List.mem_cons.1 h with h | h
        · exact .inl h
        · exact .inr (List.mem_cons_of_mem _ h)
      · rcases List.mem_cons.1 h with h | h
        · exact .inr (h ▸ List.mem_cons_self)
        · exact (ih h).imp_right (List.mem_cons_of_mem _)

theorem Memory.pairwise_put {m : Memory} (a : Nat) (b : MicroWord)
    (h : m.Pairwise (fun c d => c.1 < d.1)) : (Memory.put m a b).Pairwise (fun c d => c.1 < d.1) := by
  induction m with
  | nil => simp [Memory.put]
  | cons d m ih =>
    obtain ⟨hd, hm⟩ := List.pairwise_cons.1 h
    simp only [Memory.put]
    split
    · rename_i hlt
      refine List.pairwise_cons.2 ⟨fun c hc => ?_, h⟩
      rcases List.mem_cons.1 hc with rfl | hc
      · exact hlt
      · exact hlt.trans (hd c hc)
    · split
      · rename_i heq
        exact List.pairwise_cons.2 ⟨fun c hc => heq ▸ hd c hc, hm⟩
      · rename_i hlt hne
        refine List.pairwise_cons.2 ⟨fun c hc => ?_, ih hm⟩
        rcases Memory.mem_put hc with rfl | hc
        · show d.1 < a
          omega
        · exact hd c hc

/-- A write keeps the canonical form. -/
theorem Memory.wf_write {m : Memory} (h : m.wf) (a : Upc) (b : MicroWord) : (m.write a b).wf := by
  obtain ⟨hs, hc⟩ := h
  unfold Memory.write
  split
  · exact ⟨hs.filter _, fun c hcm => hc c (List.mem_of_mem_filter hcm)⟩
  · rename_i hb
    refine ⟨Memory.pairwise_put _ _ hs, fun c hcm => ?_⟩
    rcases Memory.mem_put hcm with rfl | hcm
    · exact ⟨a.isLt, hb⟩
    · exact hc c hcm

theorem Memory.find_put_same (m : Memory) (a : Nat) (b : MicroWord) :
    (Memory.put m a b).find? (fun c => c.1 == a) = some (a, b) := by
  induction m with
  | nil => simp [Memory.put]
  | cons d m ih =>
    simp only [Memory.put]
    split
    · simp
    · split
      · simp
      · rename_i hne
        have : (d.1 == a) = false := by simpa using fun h => hne h.symm
        simp [this, ih]

theorem Memory.find_put_other (m : Memory) {a a' : Nat} (b : MicroWord) (h : a' ≠ a) :
    (Memory.put m a b).find? (fun c => c.1 == a') = m.find? (fun c => c.1 == a') := by
  have ha : (a == a') = false := by simpa using h.symm
  induction m with
  | nil => simp [Memory.put, ha]
  | cons d m ih =>
    simp only [Memory.put]
    split
    · simp [ha]
    · split
      · rename_i heq
        have hd : (d.1 == a') = false := by simpa [← heq] using h.symm
        simp [ha, hd]
      · simp [List.find?_cons, ih]

/-- A read of the entry just written gives the byte written. -/
theorem Memory.read_write_same (m : Memory) (a : Upc) (b : MicroWord) : (m.write a b).read a = b := by
  unfold Memory.write
  split
  · rename_i hb
    have hn : (Memory.drop m a.toNat).find? (fun c => c.1 == a.toNat) = none := by
      simp [Memory.drop, List.find?_eq_none]
    simp [Memory.read, hn, hb]
  · simp [Memory.read, Memory.find_put_same]

/-- A write leaves every other entry as it was. -/
theorem Memory.read_write_other (m : Memory) {a a' : Upc} (b : MicroWord) (h : a' ≠ a) :
    (m.write a b).read a' = m.read a' := by
  have hne : a'.toNat ≠ a.toNat := fun he => h (BitVec.eq_of_toNat_eq he)
  unfold Memory.write
  split
  · have hf : (Memory.drop m a.toNat).find? (fun c => c.1 == a'.toNat) = m.find? (fun c => c.1 == a'.toNat) := by
      rw [Memory.drop, List.find?_filter]
      congr 1
      funext c
      by_cases hc : c.1 = a'.toNat
      · simp [hc, hne]
      · simp [hc]
    simp [Memory.read, hf]
  · simp [Memory.read, Memory.find_put_other m b hne]

end Sys2Proof.Machine
end

