-- ==== Sys2Proof/Laws/State.lean ====
section
/-! SUPPORT. One lemma per field per update of the state, so that no proof unfolds a record update. The reset edge has
lemmas for the fields it fixes and for those it keeps; the twelve free ones have none. -/

namespace Sys2Proof.Machine

@[simp] theorem State.tick_xin (s : State) : (s.tick).xin = s.xin := rfl
@[simp] theorem State.tick_xg (s : State) : (s.tick).xg = s.xg := rfl
@[simp] theorem State.tick_zf (s : State) : (s.tick).zf = s.zf := rfl
@[simp] theorem State.tick_xw (s : State) : (s.tick).xw = s.xw := rfl
@[simp] theorem State.tick_q (s : State) : (s.tick).q = s.q := rfl
@[simp] theorem State.tick_k (s : State) : (s.tick).k = s.k := rfl
@[simp] theorem State.tick_r (s : State) : (s.tick).r = s.r := rfl
@[simp] theorem State.tick_x (s : State) : (s.tick).x = s.x := rfl
@[simp] theorem State.tick_y (s : State) : (s.tick).y = s.y := rfl
@[simp] theorem State.tick_z (s : State) : (s.tick).z = s.z := rfl
@[simp] theorem State.tick_e (s : State) : (s.tick).e = s.e := rfl
@[simp] theorem State.tick_eo (s : State) : (s.tick).eo = s.eo := rfl
@[simp] theorem State.tick_y_out (s : State) : (s.tick).y_out = s.y_out := rfl
@[simp] theorem State.tick_upc (s : State) : (s.tick).upc = s.upc := rfl
@[simp] theorem State.tick_busy (s : State) : (s.tick).busy = s.busy := rfl
@[simp] theorem State.tick_done (s : State) : (s.tick).done = s.done := rfl
@[simp] theorem State.tick_urom (s : State) : (s.tick).urom = s.urom := rfl
@[simp] theorem State.tick_kinvRaw (s : State) : (s.tick).kinvRaw = s.kinvRaw := rfl
@[simp] theorem State.tick_inputs (s : State) : (s.tick).inputs = s.inputs.tail := rfl
@[simp] theorem State.tick_edge (s : State) : (s.tick).edge = s.edge + 1 := rfl

@[simp] theorem State.advance_xin (s : State) : (s.advance).xin = s.xin := rfl
@[simp] theorem State.advance_xg (s : State) : (s.advance).xg = s.xg := rfl
@[simp] theorem State.advance_zf (s : State) : (s.advance).zf = s.zf := rfl
@[simp] theorem State.advance_xw (s : State) : (s.advance).xw = s.xw := rfl
@[simp] theorem State.advance_q (s : State) : (s.advance).q = s.q := rfl
@[simp] theorem State.advance_k (s : State) : (s.advance).k = s.k := rfl
@[simp] theorem State.advance_r (s : State) : (s.advance).r = s.r := rfl
@[simp] theorem State.advance_x (s : State) : (s.advance).x = s.x := rfl
@[simp] theorem State.advance_y (s : State) : (s.advance).y = s.y := rfl
@[simp] theorem State.advance_z (s : State) : (s.advance).z = s.z := rfl
@[simp] theorem State.advance_e (s : State) : (s.advance).e = s.e := rfl
@[simp] theorem State.advance_eo (s : State) : (s.advance).eo = s.eo := rfl
@[simp] theorem State.advance_y_out (s : State) : (s.advance).y_out = s.y_out := rfl
@[simp] theorem State.advance_upc (s : State) : (s.advance).upc = s.upc + 1 := rfl
@[simp] theorem State.advance_busy (s : State) : (s.advance).busy = s.busy := rfl
@[simp] theorem State.advance_done (s : State) : (s.advance).done = s.done := rfl
@[simp] theorem State.advance_urom (s : State) : (s.advance).urom = s.urom := rfl
@[simp] theorem State.advance_kinvRaw (s : State) : (s.advance).kinvRaw = s.kinvRaw := rfl
@[simp] theorem State.advance_inputs (s : State) : (s.advance).inputs = s.inputs := rfl
@[simp] theorem State.advance_edge (s : State) : (s.advance).edge = s.edge := rfl

@[simp] theorem State.finish_xin (s : State) (v : OutWord) : (s.finish v).xin = s.xin := rfl
@[simp] theorem State.finish_xg (s : State) (v : OutWord) : (s.finish v).xg = s.xg := rfl
@[simp] theorem State.finish_zf (s : State) (v : OutWord) : (s.finish v).zf = s.zf := rfl
@[simp] theorem State.finish_xw (s : State) (v : OutWord) : (s.finish v).xw = s.xw := rfl
@[simp] theorem State.finish_q (s : State) (v : OutWord) : (s.finish v).q = s.q := rfl
@[simp] theorem State.finish_k (s : State) (v : OutWord) : (s.finish v).k = s.k := rfl
@[simp] theorem State.finish_r (s : State) (v : OutWord) : (s.finish v).r = s.r := rfl
@[simp] theorem State.finish_x (s : State) (v : OutWord) : (s.finish v).x = s.x := rfl
@[simp] theorem State.finish_y (s : State) (v : OutWord) : (s.finish v).y = s.y := rfl
@[simp] theorem State.finish_z (s : State) (v : OutWord) : (s.finish v).z = s.z := rfl
@[simp] theorem State.finish_e (s : State) (v : OutWord) : (s.finish v).e = s.e := rfl
@[simp] theorem State.finish_eo (s : State) (v : OutWord) : (s.finish v).eo = s.eo := rfl
@[simp] theorem State.finish_y_out (s : State) (v : OutWord) : (s.finish v).y_out = v := rfl
@[simp] theorem State.finish_upc (s : State) (v : OutWord) : (s.finish v).upc = s.upc := rfl
@[simp] theorem State.finish_busy (s : State) (v : OutWord) : (s.finish v).busy = false := rfl
@[simp] theorem State.finish_done (s : State) (v : OutWord) : (s.finish v).done = true := rfl
@[simp] theorem State.finish_urom (s : State) (v : OutWord) : (s.finish v).urom = s.urom := rfl
@[simp] theorem State.finish_kinvRaw (s : State) (v : OutWord) : (s.finish v).kinvRaw = s.kinvRaw := rfl
@[simp] theorem State.finish_inputs (s : State) (v : OutWord) : (s.finish v).inputs = s.inputs := rfl
@[simp] theorem State.finish_edge (s : State) (v : OutWord) : (s.finish v).edge = s.edge := rfl

@[simp] theorem State.accept_xin (s : State) (v : InWord) : (s.accept v).xin = v := rfl
@[simp] theorem State.accept_xg (s : State) (v : InWord) : (s.accept v).xg = s.xg := rfl
@[simp] theorem State.accept_zf (s : State) (v : InWord) : (s.accept v).zf = s.zf := rfl
@[simp] theorem State.accept_xw (s : State) (v : InWord) : (s.accept v).xw = s.xw := rfl
@[simp] theorem State.accept_q (s : State) (v : InWord) : (s.accept v).q = s.q := rfl
@[simp] theorem State.accept_k (s : State) (v : InWord) : (s.accept v).k = s.k := rfl
@[simp] theorem State.accept_r (s : State) (v : InWord) : (s.accept v).r = s.r := rfl
@[simp] theorem State.accept_x (s : State) (v : InWord) : (s.accept v).x = s.x := rfl
@[simp] theorem State.accept_y (s : State) (v : InWord) : (s.accept v).y = s.y := rfl
@[simp] theorem State.accept_z (s : State) (v : InWord) : (s.accept v).z = s.z := rfl
@[simp] theorem State.accept_e (s : State) (v : InWord) : (s.accept v).e = s.e := rfl
@[simp] theorem State.accept_eo (s : State) (v : InWord) : (s.accept v).eo = s.eo := rfl
@[simp] theorem State.accept_y_out (s : State) (v : InWord) : (s.accept v).y_out = s.y_out := rfl
@[simp] theorem State.accept_upc (s : State) (v : InWord) : (s.accept v).upc = 0 := rfl
@[simp] theorem State.accept_busy (s : State) (v : InWord) : (s.accept v).busy = true := rfl
@[simp] theorem State.accept_done (s : State) (v : InWord) : (s.accept v).done = false := rfl
@[simp] theorem State.accept_urom (s : State) (v : InWord) : (s.accept v).urom = s.urom := rfl
@[simp] theorem State.accept_kinvRaw (s : State) (v : InWord) : (s.accept v).kinvRaw = s.kinvRaw := rfl
@[simp] theorem State.accept_inputs (s : State) (v : InWord) : (s.accept v).inputs = s.inputs := rfl
@[simp] theorem State.accept_edge (s : State) (v : InWord) : (s.accept v).edge = s.edge := rfl

@[simp] theorem State.setGuard_xin (s : State) (g : InWord) (b : Bool) : (s.setGuard g b).xin = s.xin := rfl
@[simp] theorem State.setGuard_xg (s : State) (g : InWord) (b : Bool) : (s.setGuard g b).xg = g := rfl
@[simp] theorem State.setGuard_zf (s : State) (g : InWord) (b : Bool) : (s.setGuard g b).zf = b := rfl
@[simp] theorem State.setGuard_xw (s : State) (g : InWord) (b : Bool) : (s.setGuard g b).xw = s.xw := rfl
@[simp] theorem State.setGuard_q (s : State) (g : InWord) (b : Bool) : (s.setGuard g b).q = s.q := rfl
@[simp] theorem State.setGuard_k (s : State) (g : InWord) (b : Bool) : (s.setGuard g b).k = s.k := rfl
@[simp] theorem State.setGuard_r (s : State) (g : InWord) (b : Bool) : (s.setGuard g b).r = s.r := rfl
@[simp] theorem State.setGuard_x (s : State) (g : InWord) (b : Bool) : (s.setGuard g b).x = s.x := rfl
@[simp] theorem State.setGuard_y (s : State) (g : InWord) (b : Bool) : (s.setGuard g b).y = s.y := rfl
@[simp] theorem State.setGuard_z (s : State) (g : InWord) (b : Bool) : (s.setGuard g b).z = s.z := rfl
@[simp] theorem State.setGuard_e (s : State) (g : InWord) (b : Bool) : (s.setGuard g b).e = s.e := rfl
@[simp] theorem State.setGuard_eo (s : State) (g : InWord) (b : Bool) : (s.setGuard g b).eo = s.eo := rfl
@[simp] theorem State.setGuard_y_out (s : State) (g : InWord) (b : Bool) : (s.setGuard g b).y_out = s.y_out := rfl
@[simp] theorem State.setGuard_upc (s : State) (g : InWord) (b : Bool) : (s.setGuard g b).upc = s.upc := rfl
@[simp] theorem State.setGuard_busy (s : State) (g : InWord) (b : Bool) : (s.setGuard g b).busy = s.busy := rfl
@[simp] theorem State.setGuard_done (s : State) (g : InWord) (b : Bool) : (s.setGuard g b).done = s.done := rfl
@[simp] theorem State.setGuard_urom (s : State) (g : InWord) (b : Bool) : (s.setGuard g b).urom = s.urom := rfl
@[simp] theorem State.setGuard_kinvRaw (s : State) (g : InWord) (b : Bool) : (s.setGuard g b).kinvRaw = s.kinvRaw := rfl
@[simp] theorem State.setGuard_inputs (s : State) (g : InWord) (b : Bool) : (s.setGuard g b).inputs = s.inputs := rfl
@[simp] theorem State.setGuard_edge (s : State) (g : InWord) (b : Bool) : (s.setGuard g b).edge = s.edge := rfl

@[simp] theorem State.setXw_xin (s : State) (v : RrWord) : (s.setXw v).xin = s.xin := rfl
@[simp] theorem State.setXw_xg (s : State) (v : RrWord) : (s.setXw v).xg = s.xg := rfl
@[simp] theorem State.setXw_zf (s : State) (v : RrWord) : (s.setXw v).zf = s.zf := rfl
@[simp] theorem State.setXw_xw (s : State) (v : RrWord) : (s.setXw v).xw = v := rfl
@[simp] theorem State.setXw_q (s : State) (v : RrWord) : (s.setXw v).q = s.q := rfl
@[simp] theorem State.setXw_k (s : State) (v : RrWord) : (s.setXw v).k = s.k := rfl
@[simp] theorem State.setXw_r (s : State) (v : RrWord) : (s.setXw v).r = s.r := rfl
@[simp] theorem State.setXw_x (s : State) (v : RrWord) : (s.setXw v).x = s.x := rfl
@[simp] theorem State.setXw_y (s : State) (v : RrWord) : (s.setXw v).y = s.y := rfl
@[simp] theorem State.setXw_z (s : State) (v : RrWord) : (s.setXw v).z = s.z := rfl
@[simp] theorem State.setXw_e (s : State) (v : RrWord) : (s.setXw v).e = s.e := rfl
@[simp] theorem State.setXw_eo (s : State) (v : RrWord) : (s.setXw v).eo = s.eo := rfl
@[simp] theorem State.setXw_y_out (s : State) (v : RrWord) : (s.setXw v).y_out = s.y_out := rfl
@[simp] theorem State.setXw_upc (s : State) (v : RrWord) : (s.setXw v).upc = s.upc := rfl
@[simp] theorem State.setXw_busy (s : State) (v : RrWord) : (s.setXw v).busy = s.busy := rfl
@[simp] theorem State.setXw_done (s : State) (v : RrWord) : (s.setXw v).done = s.done := rfl
@[simp] theorem State.setXw_urom (s : State) (v : RrWord) : (s.setXw v).urom = s.urom := rfl
@[simp] theorem State.setXw_kinvRaw (s : State) (v : RrWord) : (s.setXw v).kinvRaw = s.kinvRaw := rfl
@[simp] theorem State.setXw_inputs (s : State) (v : RrWord) : (s.setXw v).inputs = s.inputs := rfl
@[simp] theorem State.setXw_edge (s : State) (v : RrWord) : (s.setXw v).edge = s.edge := rfl

@[simp] theorem State.setQ_xin (s : State) (v : RrWord) : (s.setQ v).xin = s.xin := rfl
@[simp] theorem State.setQ_xg (s : State) (v : RrWord) : (s.setQ v).xg = s.xg := rfl
@[simp] theorem State.setQ_zf (s : State) (v : RrWord) : (s.setQ v).zf = s.zf := rfl
@[simp] theorem State.setQ_xw (s : State) (v : RrWord) : (s.setQ v).xw = s.xw := rfl
@[simp] theorem State.setQ_q (s : State) (v : RrWord) : (s.setQ v).q = v := rfl
@[simp] theorem State.setQ_k (s : State) (v : RrWord) : (s.setQ v).k = s.k := rfl
@[simp] theorem State.setQ_r (s : State) (v : RrWord) : (s.setQ v).r = s.r := rfl
@[simp] theorem State.setQ_x (s : State) (v : RrWord) : (s.setQ v).x = s.x := rfl
@[simp] theorem State.setQ_y (s : State) (v : RrWord) : (s.setQ v).y = s.y := rfl
@[simp] theorem State.setQ_z (s : State) (v : RrWord) : (s.setQ v).z = s.z := rfl
@[simp] theorem State.setQ_e (s : State) (v : RrWord) : (s.setQ v).e = s.e := rfl
@[simp] theorem State.setQ_eo (s : State) (v : RrWord) : (s.setQ v).eo = s.eo := rfl
@[simp] theorem State.setQ_y_out (s : State) (v : RrWord) : (s.setQ v).y_out = s.y_out := rfl
@[simp] theorem State.setQ_upc (s : State) (v : RrWord) : (s.setQ v).upc = s.upc := rfl
@[simp] theorem State.setQ_busy (s : State) (v : RrWord) : (s.setQ v).busy = s.busy := rfl
@[simp] theorem State.setQ_done (s : State) (v : RrWord) : (s.setQ v).done = s.done := rfl
@[simp] theorem State.setQ_urom (s : State) (v : RrWord) : (s.setQ v).urom = s.urom := rfl
@[simp] theorem State.setQ_kinvRaw (s : State) (v : RrWord) : (s.setQ v).kinvRaw = s.kinvRaw := rfl
@[simp] theorem State.setQ_inputs (s : State) (v : RrWord) : (s.setQ v).inputs = s.inputs := rfl
@[simp] theorem State.setQ_edge (s : State) (v : RrWord) : (s.setQ v).edge = s.edge := rfl

@[simp] theorem State.setK_xin (s : State) (v : KWord) : (s.setK v).xin = s.xin := rfl
@[simp] theorem State.setK_xg (s : State) (v : KWord) : (s.setK v).xg = s.xg := rfl
@[simp] theorem State.setK_zf (s : State) (v : KWord) : (s.setK v).zf = s.zf := rfl
@[simp] theorem State.setK_xw (s : State) (v : KWord) : (s.setK v).xw = s.xw := rfl
@[simp] theorem State.setK_q (s : State) (v : KWord) : (s.setK v).q = s.q := rfl
@[simp] theorem State.setK_k (s : State) (v : KWord) : (s.setK v).k = v := rfl
@[simp] theorem State.setK_r (s : State) (v : KWord) : (s.setK v).r = s.r := rfl
@[simp] theorem State.setK_x (s : State) (v : KWord) : (s.setK v).x = s.x := rfl
@[simp] theorem State.setK_y (s : State) (v : KWord) : (s.setK v).y = s.y := rfl
@[simp] theorem State.setK_z (s : State) (v : KWord) : (s.setK v).z = s.z := rfl
@[simp] theorem State.setK_e (s : State) (v : KWord) : (s.setK v).e = s.e := rfl
@[simp] theorem State.setK_eo (s : State) (v : KWord) : (s.setK v).eo = s.eo := rfl
@[simp] theorem State.setK_y_out (s : State) (v : KWord) : (s.setK v).y_out = s.y_out := rfl
@[simp] theorem State.setK_upc (s : State) (v : KWord) : (s.setK v).upc = s.upc := rfl
@[simp] theorem State.setK_busy (s : State) (v : KWord) : (s.setK v).busy = s.busy := rfl
@[simp] theorem State.setK_done (s : State) (v : KWord) : (s.setK v).done = s.done := rfl
@[simp] theorem State.setK_urom (s : State) (v : KWord) : (s.setK v).urom = s.urom := rfl
@[simp] theorem State.setK_kinvRaw (s : State) (v : KWord) : (s.setK v).kinvRaw = s.kinvRaw := rfl
@[simp] theorem State.setK_inputs (s : State) (v : KWord) : (s.setK v).inputs = s.inputs := rfl
@[simp] theorem State.setK_edge (s : State) (v : KWord) : (s.setK v).edge = s.edge := rfl

@[simp] theorem State.setR_xin (s : State) (v : RrWord) : (s.setR v).xin = s.xin := rfl
@[simp] theorem State.setR_xg (s : State) (v : RrWord) : (s.setR v).xg = s.xg := rfl
@[simp] theorem State.setR_zf (s : State) (v : RrWord) : (s.setR v).zf = s.zf := rfl
@[simp] theorem State.setR_xw (s : State) (v : RrWord) : (s.setR v).xw = s.xw := rfl
@[simp] theorem State.setR_q (s : State) (v : RrWord) : (s.setR v).q = s.q := rfl
@[simp] theorem State.setR_k (s : State) (v : RrWord) : (s.setR v).k = s.k := rfl
@[simp] theorem State.setR_r (s : State) (v : RrWord) : (s.setR v).r = v := rfl
@[simp] theorem State.setR_x (s : State) (v : RrWord) : (s.setR v).x = s.x := rfl
@[simp] theorem State.setR_y (s : State) (v : RrWord) : (s.setR v).y = s.y := rfl
@[simp] theorem State.setR_z (s : State) (v : RrWord) : (s.setR v).z = s.z := rfl
@[simp] theorem State.setR_e (s : State) (v : RrWord) : (s.setR v).e = s.e := rfl
@[simp] theorem State.setR_eo (s : State) (v : RrWord) : (s.setR v).eo = s.eo := rfl
@[simp] theorem State.setR_y_out (s : State) (v : RrWord) : (s.setR v).y_out = s.y_out := rfl
@[simp] theorem State.setR_upc (s : State) (v : RrWord) : (s.setR v).upc = s.upc := rfl
@[simp] theorem State.setR_busy (s : State) (v : RrWord) : (s.setR v).busy = s.busy := rfl
@[simp] theorem State.setR_done (s : State) (v : RrWord) : (s.setR v).done = s.done := rfl
@[simp] theorem State.setR_urom (s : State) (v : RrWord) : (s.setR v).urom = s.urom := rfl
@[simp] theorem State.setR_kinvRaw (s : State) (v : RrWord) : (s.setR v).kinvRaw = s.kinvRaw := rfl
@[simp] theorem State.setR_inputs (s : State) (v : RrWord) : (s.setR v).inputs = s.inputs := rfl
@[simp] theorem State.setR_edge (s : State) (v : RrWord) : (s.setR v).edge = s.edge := rfl

@[simp] theorem State.setCordicRegs_xin (s : State) (c : CordicRegs) : (s.setCordicRegs c).xin = s.xin := rfl
@[simp] theorem State.setCordicRegs_xg (s : State) (c : CordicRegs) : (s.setCordicRegs c).xg = s.xg := rfl
@[simp] theorem State.setCordicRegs_zf (s : State) (c : CordicRegs) : (s.setCordicRegs c).zf = s.zf := rfl
@[simp] theorem State.setCordicRegs_xw (s : State) (c : CordicRegs) : (s.setCordicRegs c).xw = s.xw := rfl
@[simp] theorem State.setCordicRegs_q (s : State) (c : CordicRegs) : (s.setCordicRegs c).q = s.q := rfl
@[simp] theorem State.setCordicRegs_k (s : State) (c : CordicRegs) : (s.setCordicRegs c).k = s.k := rfl
@[simp] theorem State.setCordicRegs_r (s : State) (c : CordicRegs) : (s.setCordicRegs c).r = s.r := rfl
@[simp] theorem State.setCordicRegs_x (s : State) (c : CordicRegs) : (s.setCordicRegs c).x = c.x := rfl
@[simp] theorem State.setCordicRegs_y (s : State) (c : CordicRegs) : (s.setCordicRegs c).y = c.y := rfl
@[simp] theorem State.setCordicRegs_z (s : State) (c : CordicRegs) : (s.setCordicRegs c).z = c.z := rfl
@[simp] theorem State.setCordicRegs_e (s : State) (c : CordicRegs) : (s.setCordicRegs c).e = s.e := rfl
@[simp] theorem State.setCordicRegs_eo (s : State) (c : CordicRegs) : (s.setCordicRegs c).eo = s.eo := rfl
@[simp] theorem State.setCordicRegs_y_out (s : State) (c : CordicRegs) : (s.setCordicRegs c).y_out = s.y_out := rfl
@[simp] theorem State.setCordicRegs_upc (s : State) (c : CordicRegs) : (s.setCordicRegs c).upc = s.upc := rfl
@[simp] theorem State.setCordicRegs_busy (s : State) (c : CordicRegs) : (s.setCordicRegs c).busy = s.busy := rfl
@[simp] theorem State.setCordicRegs_done (s : State) (c : CordicRegs) : (s.setCordicRegs c).done = s.done := rfl
@[simp] theorem State.setCordicRegs_urom (s : State) (c : CordicRegs) : (s.setCordicRegs c).urom = s.urom := rfl
@[simp] theorem State.setCordicRegs_kinvRaw (s : State) (c : CordicRegs) : (s.setCordicRegs c).kinvRaw = s.kinvRaw := rfl
@[simp] theorem State.setCordicRegs_inputs (s : State) (c : CordicRegs) : (s.setCordicRegs c).inputs = s.inputs := rfl
@[simp] theorem State.setCordicRegs_edge (s : State) (c : CordicRegs) : (s.setCordicRegs c).edge = s.edge := rfl

@[simp] theorem State.setSum_xin (s : State) (t : CordicWord) (v : OutWord) : (s.setSum t v).xin = s.xin := rfl
@[simp] theorem State.setSum_xg (s : State) (t : CordicWord) (v : OutWord) : (s.setSum t v).xg = s.xg := rfl
@[simp] theorem State.setSum_zf (s : State) (t : CordicWord) (v : OutWord) : (s.setSum t v).zf = s.zf := rfl
@[simp] theorem State.setSum_xw (s : State) (t : CordicWord) (v : OutWord) : (s.setSum t v).xw = s.xw := rfl
@[simp] theorem State.setSum_q (s : State) (t : CordicWord) (v : OutWord) : (s.setSum t v).q = s.q := rfl
@[simp] theorem State.setSum_k (s : State) (t : CordicWord) (v : OutWord) : (s.setSum t v).k = s.k := rfl
@[simp] theorem State.setSum_r (s : State) (t : CordicWord) (v : OutWord) : (s.setSum t v).r = s.r := rfl
@[simp] theorem State.setSum_x (s : State) (t : CordicWord) (v : OutWord) : (s.setSum t v).x = s.x := rfl
@[simp] theorem State.setSum_y (s : State) (t : CordicWord) (v : OutWord) : (s.setSum t v).y = s.y := rfl
@[simp] theorem State.setSum_z (s : State) (t : CordicWord) (v : OutWord) : (s.setSum t v).z = s.z := rfl
@[simp] theorem State.setSum_e (s : State) (t : CordicWord) (v : OutWord) : (s.setSum t v).e = t := rfl
@[simp] theorem State.setSum_eo (s : State) (t : CordicWord) (v : OutWord) : (s.setSum t v).eo = v := rfl
@[simp] theorem State.setSum_y_out (s : State) (t : CordicWord) (v : OutWord) : (s.setSum t v).y_out = s.y_out := rfl
@[simp] theorem State.setSum_upc (s : State) (t : CordicWord) (v : OutWord) : (s.setSum t v).upc = s.upc := rfl
@[simp] theorem State.setSum_busy (s : State) (t : CordicWord) (v : OutWord) : (s.setSum t v).busy = s.busy := rfl
@[simp] theorem State.setSum_done (s : State) (t : CordicWord) (v : OutWord) : (s.setSum t v).done = s.done := rfl
@[simp] theorem State.setSum_urom (s : State) (t : CordicWord) (v : OutWord) : (s.setSum t v).urom = s.urom := rfl
@[simp] theorem State.setSum_kinvRaw (s : State) (t : CordicWord) (v : OutWord) : (s.setSum t v).kinvRaw = s.kinvRaw := rfl
@[simp] theorem State.setSum_inputs (s : State) (t : CordicWord) (v : OutWord) : (s.setSum t v).inputs = s.inputs := rfl
@[simp] theorem State.setSum_edge (s : State) (t : CordicWord) (v : OutWord) : (s.setSum t v).edge = s.edge := rfl

@[simp] theorem State.withUrom_xin (s : State) (m : Memory) : (s.withUrom m).xin = s.xin := rfl
@[simp] theorem State.withUrom_xg (s : State) (m : Memory) : (s.withUrom m).xg = s.xg := rfl
@[simp] theorem State.withUrom_zf (s : State) (m : Memory) : (s.withUrom m).zf = s.zf := rfl
@[simp] theorem State.withUrom_xw (s : State) (m : Memory) : (s.withUrom m).xw = s.xw := rfl
@[simp] theorem State.withUrom_q (s : State) (m : Memory) : (s.withUrom m).q = s.q := rfl
@[simp] theorem State.withUrom_k (s : State) (m : Memory) : (s.withUrom m).k = s.k := rfl
@[simp] theorem State.withUrom_r (s : State) (m : Memory) : (s.withUrom m).r = s.r := rfl
@[simp] theorem State.withUrom_x (s : State) (m : Memory) : (s.withUrom m).x = s.x := rfl
@[simp] theorem State.withUrom_y (s : State) (m : Memory) : (s.withUrom m).y = s.y := rfl
@[simp] theorem State.withUrom_z (s : State) (m : Memory) : (s.withUrom m).z = s.z := rfl
@[simp] theorem State.withUrom_e (s : State) (m : Memory) : (s.withUrom m).e = s.e := rfl
@[simp] theorem State.withUrom_eo (s : State) (m : Memory) : (s.withUrom m).eo = s.eo := rfl
@[simp] theorem State.withUrom_y_out (s : State) (m : Memory) : (s.withUrom m).y_out = s.y_out := rfl
@[simp] theorem State.withUrom_upc (s : State) (m : Memory) : (s.withUrom m).upc = s.upc := rfl
@[simp] theorem State.withUrom_busy (s : State) (m : Memory) : (s.withUrom m).busy = s.busy := rfl
@[simp] theorem State.withUrom_done (s : State) (m : Memory) : (s.withUrom m).done = s.done := rfl
@[simp] theorem State.withUrom_urom (s : State) (m : Memory) : (s.withUrom m).urom = m := rfl
@[simp] theorem State.withUrom_kinvRaw (s : State) (m : Memory) : (s.withUrom m).kinvRaw = s.kinvRaw := rfl
@[simp] theorem State.withUrom_inputs (s : State) (m : Memory) : (s.withUrom m).inputs = s.inputs := rfl
@[simp] theorem State.withUrom_edge (s : State) (m : Memory) : (s.withUrom m).edge = s.edge := rfl

@[simp] theorem State.resetEdge_y_out (s : State) : s.resetEdge.y_out = 0 := rfl
@[simp] theorem State.resetEdge_upc (s : State) : s.resetEdge.upc = 0 := rfl
@[simp] theorem State.resetEdge_busy (s : State) : s.resetEdge.busy = false := rfl
@[simp] theorem State.resetEdge_done (s : State) : s.resetEdge.done = false := rfl
@[simp] theorem State.resetEdge_urom (s : State) : s.resetEdge.urom = s.urom := rfl
@[simp] theorem State.resetEdge_kinvRaw (s : State) : s.resetEdge.kinvRaw = s.kinvRaw := rfl
@[simp] theorem State.resetEdge_inputs (s : State) : s.resetEdge.inputs = s.inputs := rfl
@[simp] theorem State.resetEdge_edge (s : State) : s.resetEdge.edge = s.edge := rfl

@[simp] theorem State.cordicRegs_x (s : State) : s.cordicRegs.x = s.x := rfl
@[simp] theorem State.cordicRegs_y (s : State) : s.cordicRegs.y = s.y := rfl
@[simp] theorem State.cordicRegs_z (s : State) : s.cordicRegs.z = s.z := rfl

@[simp] theorem State.cordicRegs_setCordicRegs (s : State) (c : CordicRegs) :
    (s.setCordicRegs c).cordicRegs = c := rfl

@[simp] theorem State.cordicRegs_advance (s : State) : s.advance.cordicRegs = s.cordicRegs := rfl

@[simp] theorem State.cordicRegs_tick (s : State) : s.tick.cordicRegs = s.cordicRegs := rfl

@[simp] theorem State.outputs_tick (s : State) : s.tick.outputs = s.outputs := rfl

@[simp] theorem State.fetch_tick (s : State) : s.tick.fetch = s.fetch := rfl

end Sys2Proof.Machine
end

