-- ==== Sys2Proof/Laws/Ops.lean ====
section
/-! SUPPORT. What an edge and each meaning can do, said once: the inversion lemmas later proofs cite instead of unfolding
`step` and `exec`. -/

namespace Sys2Proof.Machine

theorem State.pins_eq_pinsAt (s : State) : s.pins = s.pinsAt 0 := by
  unfold State.pins State.pinsAt
  cases s.inputs <;> rfl

/-- The inputs `n` edges after the passed edge are those `n + 1` edges after the coming one. -/
theorem State.pinsAt_tick (s : State) (n : Nat) : s.tick.pinsAt n = s.pinsAt (n + 1) := by
  unfold State.pinsAt
  cases h : s.inputs with
  | nil => simp [h, Nat.add_comm, Nat.add_left_comm]
  | cons p l => simp [h, Nat.add_comm, Nat.add_left_comm]

/-- Only the inputs and the counter matter for what the ports carry. -/
theorem State.pinsAt_congr {s t : State} (hi : t.inputs = s.inputs) (he : t.edge = s.edge) (n : Nat) :
    t.pinsAt n = s.pinsAt n := by
  simp [State.pinsAt, hi, he]

theorem State.event_reset {s : State} {p : PortInputs} (h : p.rst = true) : s.event p = .reset := by
  simp [State.event, h]

theorem State.event_busy {s : State} {p : PortInputs} (h : p.rst = false) (hb : s.busy = true) :
    s.event p = eventOf (.micro s.fetch) := by
  simp [State.event, h, hb]

theorem State.event_start {s : State} {p : PortInputs} (h : p.rst = false) (hb : s.busy = false)
    (hs : p.start = true) : s.event p = .run (.eval p.x_in) := by
  simp [State.event, h, hb, hs, eventOf, decode]

theorem State.event_idle {s : State} {p : PortInputs} (h : p.rst = false) (hb : s.busy = false)
    (hs : p.start = false) : s.event p = .idle := by
  simp [State.event, h, hb, hs]

/-- Everything an edge that answers a next state can be: reset, step, accept or idle (R130). -/
theorem step_cases {s t : State} (h : step s = .next t) :
    (s.pins.rst = true ∧ t = s.tick.resetEdge) ∨
    (s.pins.rst = false ∧ s.busy = true ∧ ∃ i, decodeMicro s.fetch = .ok i ∧ exec i s.tick = .next t) ∨
    (s.pins.rst = false ∧ s.busy = false ∧ s.pins.start = true ∧ t = s.tick.accept s.pins.x_in) ∨
    (s.pins.rst = false ∧ s.busy = false ∧ s.pins.start = false ∧ t = s.tick) := by
  unfold step at h
  rcases hr : s.pins.rst with _ | _
  · rcases hb : s.busy with _ | _
    · rcases hs : s.pins.start with _ | _
      · rw [State.event_idle hr hb hs] at h
        simp_all
      · rw [State.event_start hr hb hs] at h
        simp_all [exec, execEval]
    · rw [State.event_busy hr hb] at h
      unfold eventOf decode at h
      rcases hd : decodeMicro s.fetch with ⟨w⟩ | i
      · simp [hd] at h
      · simp only [hd] at h
        exact .inr (.inl ⟨rfl, rfl, i, rfl, h⟩)
  · rw [State.event_reset hr] at h
    simp_all

/-- Every meaning that answers a next state is one of these updates of the registers. -/
theorem exec_cases {i : Instr} {s t : State} (h : exec i s = .next t) :
    (i = .guard ∧ zeroShortcut s.xin = true ∧ t = (s.setGuard (guardedOperand s.xin) true).finish 0) ∨
    (i = .guard ∧ zeroShortcut s.xin = false ∧ t = (s.setGuard (guardedOperand s.xin) false).advance) ∨
    (i = .widen ∧ t = (s.setXw (widenInToRr s.xg)).advance) ∨
    (i = .mulq ∧ t = (s.setQ (quotient s.xw)).advance) ∨
    (i = .floork ∧ t = (s.setK (truncateAndCorrect s.q)).advance) ∨
    (i = .resid ∧ t = (s.setR (residualOf s.xw s.k)).advance) ∨
    (i = .init ∧ t = (s.setCordicRegs (initialRegs s.kinvRaw s.r)).advance) ∨
    (∃ idx, i = .rot idx ∧ legalIndex idx = true ∧
      t = (s.setCordicRegs (rotate (rotOperand idx) s.cordicRegs)).advance) ∨
    (i = .sum ∧ t = (s.setSum (cordicSum s.x s.y) (narrowCordicToOut (clampSum (cordicSum s.x s.y)))).advance) ∨
    (i = .recon ∧ t = s.finish (reconstruct s.eo s.k)) ∨
    (∃ v, i = .eval v ∧ s.busy = true ∧ t = s) ∨
    (∃ v, i = .eval v ∧ s.busy = false ∧ t = s.accept v) := by
  cases i with
  | guard =>
    rcases hz : zeroShortcut s.xin with _ | _ <;> simp_all [exec, execGuard]
  | widen => simp_all [exec, execWiden]
  | mulq => simp_all [exec, execMulq]
  | floork => simp_all [exec, execFloork]
  | resid => simp_all [exec, execResid]
  | init => simp_all [exec, execInit]
  | rot idx =>
    rcases hl : legalIndex idx with _ | _ <;> simp_all [exec, execRot]
  | sum => simp_all [exec, execSum]
  | recon => simp_all [exec, execRecon]
  | eval v =>
    rcases hb : s.busy with _ | _ <;> simp_all [exec, execEval]

/-- The sentinel is never set by a 16-bit word (R74). -/
@[simp] theorem zeroShortcut_eq_false (v : InWord) : zeroShortcut v = false := by
  have h := BitVec.le_toInt v
  simp [zeroShortcut]
  omega

/-- A run of `n + 1` steps whose first step answers `t` is the run of `n` steps from `t`. -/
theorem run_succ_of_step (M : Host.Core) {n : Nat} {s t : M.State} (h : M.step s = .next t) :
    M.run (n + 1) s = M.run n t := by
  simp [Host.Core.run, h]

/-- The same for this machine, in its own names. -/
theorem core_run_succ {n : Nat} {s t : State} (h : step s = .next t) :
    Host.Core.run Sys2Proof.core (n + 1) s = Host.Core.run Sys2Proof.core n t :=
  run_succ_of_step Sys2Proof.core h

/-- A run goes on from where its first part ends. -/
theorem run_add (M : Host.Core) (m n : Nat) {s t : M.State} (h : M.run m s = .next t) :
    M.run (m + n) s = M.run n t := by
  induction m generalizing s with
  | zero =>
    simp only [Host.Core.run, Host.Outcome.next.injEq] at h
    simp [h]
  | succ m ih =>
    rw [Nat.succ_add]
    rcases hs : M.step s with s' | f | r
    · rw [run_succ_of_step M hs] at h ⊢
      exact ih h
    · simp [Host.Core.run, hs] at h
    · simp [Host.Core.run, hs] at h

end Sys2Proof.Machine
end

