-- ==== Sys2Proof/Laws/PerInstr.lean ====
section
/-! SUPPORT. The statements made of every instruction as syntax, one lemma per constructor.

`TableRow`: the code word of a well-formed micro-operation fits the row of the opcode map that has its mnemonic (R63), and
the code word of `EVAL` is its operand (R60). -/

namespace Sys2Proof.Laws.TableRow

/-- What the family says of an instruction. -/
def Statement (i : Instr) : Prop :=
  i.wf = true →
    match encode i with
    | .micro w => ∃ row ∈ opcodeTable, row.mnemonic = mnemonic i ∧ rowFits row w = true
    | .port w => i = .eval w

theorem guard : Statement .guard := fun _ => ⟨⟨"GUARD", 0x01, 0xFF⟩, by decide, rfl, by decide⟩

theorem widen : Statement .widen := fun _ => ⟨⟨"WIDEN", 0x02, 0xFF⟩, by decide, rfl, by decide⟩

theorem mulq : Statement .mulq := fun _ => ⟨⟨"MULQ", 0x03, 0xFF⟩, by decide, rfl, by decide⟩

theorem floork : Statement .floork := fun _ => ⟨⟨"FLOORK", 0x04, 0xFF⟩, by decide, rfl, by decide⟩

theorem resid : Statement .resid := fun _ => ⟨⟨"RESID", 0x05, 0xFF⟩, by decide, rfl, by decide⟩

theorem init : Statement .init := fun _ => ⟨⟨"INIT", 0x06, 0xFF⟩, by decide, rfl, by decide⟩

theorem rot (idx : RotIndex) : Statement (.rot idx) := fun h =>
  ⟨⟨"ROT", 0x80, 0xE0⟩, by decide, rfl, by revert idx; decide⟩

theorem sum : Statement .sum := fun _ => ⟨⟨"SUM", 0x07, 0xFF⟩, by decide, rfl, by decide⟩

theorem recon : Statement .recon := fun _ => ⟨⟨"RECON", 0x08, 0xFF⟩, by decide, rfl, by decide⟩

theorem eval (operand : InWord) : Statement (.eval operand) := fun _ => rfl

end Sys2Proof.Laws.TableRow
end

