-- ==== Sys2Proof/Laws/Program.lean ====
section
/-! SUPPORT. What the store built for a micro-program holds, and what building a block with parameters changes. -/

namespace Sys2Proof.Machine

/-- Writing a list of entries keeps the canonical form. -/
theorem Memory.wf_foldl_write (f : Nat → MicroWord) (l : List Nat) {m : Memory} (h : m.wf) :
    (l.foldl (fun m a => m.write (BitVec.ofNat 6 a) (f a)) m).wf := by
  induction l generalizing m with
  | nil => exact h
  | cons a l ih => exact ih (Memory.wf_write h _ _)

/-- After the entries of a list are written, entry `a` reads as its byte if it is in the list, else as before. -/
theorem Memory.read_foldl_write (f : Nat → MicroWord) (l : List Nat) (m : Memory) (a : Upc) (hl : ∀ b ∈ l, b < 64) :
    (l.foldl (fun m b => m.write (BitVec.ofNat 6 b) (f b)) m).read a =
      if a.toNat ∈ l then f a.toNat else m.read a := by
  induction l generalizing m with
  | nil => simp
  | cons b l ih =>
    rw [List.foldl_cons, ih _ fun c hc => hl c (List.mem_cons_of_mem _ hc)]
    by_cases hb : a.toNat = b
    · have ha : BitVec.ofNat 6 b = a := by simp [← hb]
      rw [ha, Memory.read_write_same]
      simp [hb]
    · have ha : a ≠ BitVec.ofNat 6 b := fun h => hb (by
        rw [h, BitVec.toNat_ofNat]
        exact Nat.mod_eq_of_lt (hl b List.mem_cons_self))
      rw [Memory.read_write_other _ _ ha]
      simp [hb]

/-- The store built for a program is in canonical form. -/
theorem uromWith_wf (program : List Instr) : (uromWith program).wf :=
  Memory.wf_foldl_write _ _ Memory.wf_nil

/-- The store built for a program reads as its bytes, then 0x00. -/
@[simp] theorem uromWith_read (program : List Instr) (a : Upc) :
    (uromWith program).read a = uromByte program a.toNat := by
  have ha : a.toNat ∈ List.range 64 := List.mem_range.2 a.isLt
  rw [uromWith, Memory.read_foldl_write _ _ _ _ fun b hb => List.mem_range.1 hb, if_pos ha]

/-- A store built for a micro-program that fits holds it. -/
theorem uromHolds_uromWith {s : State} {program : List Instr} (hs : s.urom = uromWith program)
    (hl : program.length ≤ 64) : UromHolds s program := by
  intro a w ha
  have hlt : a < 64 := by
    have h1 := (List.getElem?_eq_some_iff.1 ha).1
    have h2 : (encodeBytes program).length ≤ program.length := List.length_filterMap_le _ _
    omega
  have hn : (BitVec.ofNat 6 a).toNat = a := by
    rw [BitVec.toNat_ofNat]
    exact Nat.mod_eq_of_lt hlt
  rw [hs, uromWith_read, hn, uromByte, ha]
  rfl

/-- Everything `withParams` can do: within the bounds it replaces the two stores, and nothing else. -/
theorem State.withParams_cases {s t : State} {p : Params} (h : s.withParams p = some t) :
    p.legal = true ∧ p.program.length ≤ 64 ∧ t = { s with urom := uromWith p.program, kinvRaw := p.kinv } := by
  unfold State.withParams at h
  split at h
  · rename_i hp
    simp only [Bool.and_eq_true, decide_eq_true_eq] at hp
    exact ⟨hp.1, hp.2, (Option.some.inj h).symm⟩
  · cases h

end Sys2Proof.Machine
end

