-- ==== Sys2Proof/Tests/Slice0.lean ====
section
/-! SUPPORT. The model's own tests, few and small. Every expected word is the spec's: the opcode map (R63), the verdicts
of 95_test_vectors section 2.10, the micro-operation vectors of 95_test_vectors sections 2.1 to 2.9, the EVAL vectors of section
3, the program P8. After them one witness for each statement that has hypotheses: a state and operands that meet them. -/

namespace Sys2Proof.Tests
open Sys2Proof Sys2Proof.Machine

/-- An outcome is a next state of which `p` holds. -/
def nextIs (o : Host.Outcome State Fault Refusal) (p : State → Bool) : Bool :=
  match o with
  | .next t => p t
  | _ => false

/-- An outcome is the refusal of the reserved word `w`. -/
def refusedAs (o : Host.Outcome State Fault Refusal) (w : MicroWord) : Bool :=
  match o with
  | .refused (.reservedMicroop w') => decide (w' = w)
  | _ => false

/-- The decoder's answer on a micro-operation word, as an option. -/
def word (w : MicroWord) : Option Instr := (decode (.micro w)).toOption

/-- Quiet inputs of an edge: no reset, no request. -/
def quiet : PortInputs := { rst := false, start := false, x_in := 0 }

/-- A transaction in progress at entry `n` of `UROM`, the coming edge quiet. -/
def at_ (n : Upc) : State := { State.reset with busy := true, upc := n, inputs := [quiet] }

/-! ## Well-formedness -/

theorem test_wf_refuses_rot_0 : (Instr.rot 0).wf = false := by decide

theorem test_wf_refuses_rot_31 : (Instr.rot 31).wf = false := by decide

theorem test_wf_accepts_rot_1_and_30 : (Instr.rot 1).wf = true ∧ (Instr.rot 30).wf = true := by decide

/-! ## Decoding (R63, R64; 95_test_vectors section 2.10) -/

theorem test_decode_function_codes :
    word 0b00000001 = some .guard ∧ word 0b00000010 = some .widen ∧ word 0b00000011 = some .mulq ∧
    word 0b00000100 = some .floork ∧ word 0b00000101 = some .resid ∧ word 0b00000110 = some .init ∧
    word 0b00000111 = some .sum ∧ word 0b00001000 = some .recon := by decide

theorem test_decode_rotations :
    word 0b10000001 = some (.rot 1) ∧ word 0b10000100 = some (.rot 4) ∧ word 0b10001101 = some (.rot 13) ∧
    word 0b10001111 = some (.rot 15) ∧ word 0b10010000 = some (.rot 16) ∧ word 0b10011110 = some (.rot 30) := by
  decide

theorem test_decode_reserved :
    [0x00, 0x09, 0x7F, 0x80, 0x9F, 0xA0, 0xA1, 0xC4, 0xE1, 0xFF].all (fun w => word w == none) = true := by decide

theorem test_decode_eval_operand : decode (.port 0x1800) = .ok (.eval 0x1800) := rfl

theorem test_decode_table_word :
    decodeTableWord 8 0x84 = some (.rot 4) ∧ decodeTableWord 8 0x80 = none ∧
    decodeTableWord 16 0xF000 = some (.eval 0xF000) := by decide

theorem test_assembler : assembler (.rot 13) = "ROT 13" ∧ assembler .guard = "GUARD" := by decide

/-! ## One step of each instruction (95_test_vectors sections 2.1 to 2.9) -/

theorem test_guard_clamps_positive :
    nextIs (exec .guard { State.reset with xin := 0x1800 }) (fun t => t.xg == 0x0000 && t.zf == false && t.upc == 1) = true := by
  decide

theorem test_guard_keeps_minimum :
    nextIs (exec .guard { State.reset with xin := 0x8000 }) (fun t => t.xg == 0x8000 && t.zf == false) = true := by decide

theorem test_widen_negative :
    nextIs (exec .widen { State.reset with xg := 0xF000 }) (fun t => t.xw == 0xFF0000) = true := by decide

theorem test_widen_positive :
    nextIs (exec .widen { State.reset with xg := 0x7FFF }) (fun t => t.xw == 0x07FFF0) = true := by decide

theorem test_mulq_negative :
    nextIs (exec .mulq { State.reset with xw := 0xFF0000 }) (fun t => t.q == 0xFE8EAC) = true := by decide

theorem test_mulq_wraps :
    nextIs (exec .mulq { State.reset with xw := 0x7FFFFF }) (fun t => t.q == 0xB8A9FE) = true := by decide

theorem test_floork_corrects :
    nextIs (exec .floork { State.reset with q := 0xF47560 }) (fun t => t.k == 0xF4) = true := by decide

theorem test_floork_exact_integer :
    nextIs (exec .floork { State.reset with q := 0xF90000 }) (fun t => t.k == 0xF9) = true := by decide

theorem test_resid_negative_residual :
    nextIs (exec .resid { State.reset with xw := 0xFB25E0, k := 0xF9 }) (fun t => t.r == 0xFFFFFE) = true := by decide

theorem test_resid_wraps :
    nextIs (exec .resid { State.reset with xw := 0x800000, k := 0x7F }) (fun t => t.r == 0x27F872) = true := by decide

theorem test_init :
    nextIs (exec .init { State.reset with r := 0x0062E4 })
      (fun t => t.x == 0x26A3D0E4 && t.y == 0x00000000 && t.z == 0x0C5C8000) = true := by decide

theorem test_init_wraps :
    nextIs (exec .init { State.reset with r := 0x040000 }) (fun t => t.z == 0x80000000) = true := by decide

theorem test_rot_up_uses_old_x :
    nextIs (exec (.rot 4) { State.reset with x := 0x20000000, y := 0xFFFFFFF1, z := 0x00000005 })
      (fun t => t.x == 0x1FFFFFFF && t.y == 0x01FFFFF1 && t.z == 0xFDFF54F4) = true := by decide

theorem test_rot_down_at_30 :
    nextIs (exec (.rot 30) { State.reset with x := 0xE0000000, y := 0xF0000000, z := 0xFFFFFFFF })
      (fun t => t.x == 0xE0000001 && t.y == 0xF0000001 && t.z == 0xFFFFFFFF) = true := by decide

theorem test_sum_drops_low_bits :
    nextIs (exec .sum { State.reset with x := 0x226AE4D8, y := 0x0CABEA5E })
      (fun t => t.e == 0x2F16CF36 && t.eo == 0xBC5B3C) = true := by decide

theorem test_sum_clamps_after_wrap :
    nextIs (exec .sum { State.reset with x := 0x7FFFFFFF, y := 0x00000001 })
      (fun t => t.e == 0x80000000 && t.eo == 0x000000) = true := by decide

theorem test_recon_right :
    nextIs (exec .recon { State.reset with eo := 0xBC5B3C, k := 0xFE, busy := true, upc := 24 })
      (fun t => t.y_out == 0x2F16CF && t.done && !t.busy && t.upc == 24) = true := by decide

theorem test_recon_left_drops_bits :
    nextIs (exec .recon { State.reset with eo := 0xBC5B3C, k := 0x01 }) (fun t => t.y_out == 0x78B678) = true := by decide

theorem test_eval_accepts :
    nextIs (exec (.eval 0xF000) { State.reset with done := true, y_out := 0x80000B, upc := 24 })
      (fun t => t.xin == 0xF000 && t.busy && !t.done && t.upc == 0 && t.y_out == 0x80000B) = true := by decide

theorem test_eval_lost_while_busy :
    nextIs (exec (.eval 0xF000) { State.reset with xin := 0x8000, busy := true, upc := 7 })
      (fun t => t.xin == 0x8000 && t.upc == 7) = true := by decide

/-! ## The function `evaluate` (95_test_vectors section 3 and program P8) -/

set_option maxRecDepth 4000 in
theorem test_evaluate_minus_one : evaluate 0xF000 = 0x2F16CF := by decide

set_option maxRecDepth 4000 in
theorem test_evaluate_minimum : evaluate 0x8000 = 0x000AFD := by decide

set_option maxRecDepth 4000 in
theorem test_evaluate_negative_residual : evaluate 0xB25E = 0x00FFFF := by decide

set_option maxRecDepth 4000 in
theorem test_evaluate_positive : evaluate 0x7FFF = 0x80000B := by decide

theorem test_evaluate_three_stages :
    evaluateWith { stageCount := 3, repeatSet := [], kinv := kinv } 0xF000 = some 0x30E754 := by decide

theorem test_parameters_out_of_bounds :
    evaluateWith { stageCount := 31, repeatSet := [], kinv := kinv } 0xF000 = none ∧
    (State.reset.withParams { stageCount := 0, repeatSet := [], kinv := kinv }).isNone = true ∧
    (State.reset.withParams { stageCount := 3, repeatSet := [4], kinv := kinv }).isNone = true := by decide

/-- The micro-program of P8 in the store, and another gain-inverse word for `INIT`. -/
theorem test_parameters_build_the_block :
    (match State.reset.withParams { stageCount := 3, repeatSet := [], kinv := 0x20000000 } with
    | some t => t.urom.read 9 == 0x07 && t.urom.read 10 == 0x08 && t.urom.read 11 == 0x00 &&
        nextIs (exec .init t) fun u => u.x == 0x20000000
    | none => false) = true := by decide

/-! ## The edge -/

theorem test_step_runs_placed_word :
    nextIs (step ({ State.reset with xg := 0xF000 }.withFetchWord 8 0x02)) (fun t => t.xw == 0xFF0000 && t.upc == 1) = true := by
  decide

theorem test_step_runs_placed_operand :
    nextIs (step (State.reset.withFetchWord 16 0x1800)) (fun t => t.xin == 0x1800 && t.busy && t.upc == 0) = true := by decide

theorem test_step_refuses_reserved : refusedAs (step (at_ 25)) 0x00 = true := by decide

theorem test_step_runs_default_program : nextIs (step { at_ 24 with eo := 0x000001, k := 0xFF })
    (fun t => t.y_out == 0x000000 && t.done) = true := by decide

theorem test_reset_over_busy :
    nextIs (step { at_ 7 with y_out := 5, inputs := [{ rst := true, start := true, x_in := 9 }] })
      (fun t => t.y_out == 0 && t.upc == 0 && !t.busy && !t.done && t.inputs == []) = true := by decide

/-! ## Witnesses: for each statement with hypotheses, a state and operands that meet them -/

theorem witness_DecodeInvertsEncode :
    (Instr.rot 30).wf = true ∧ Instr.guard.wf = true ∧ decode (.micro 0x9E) = .ok (.rot 30) ∧
    decode (.port 0xFFFF) = .ok (.eval 0xFFFF) := ⟨by decide, by decide, rfl, rfl⟩

theorem witness_DecoderFollowsOpcodeMap :
    decode (.micro 0x08) = .ok .recon ∧ decode (.micro 0x81) = .ok (.rot 1) ∧
    decode (.micro 0x80) = .error (.reservedMicroop 0x80) ∧ (0x81 : MicroWord) &&& 0xE0 = 0x80 := ⟨rfl, rfl, rfl, rfl⟩

/-- Both sides of the equivalence, at the ends of the three ranges and one word beside each end. -/
theorem witness_ReservedWordsAreRefused :
    (([0x00, 0x09, 0x80, 0x9F, 0xFF] : List MicroWord).all fun w =>
      let s : State := { (at_ 0).withFetchWord 8 w.toNat with edge := 0 }
      !s.pins.rst && s.busy && s.fetch == w && refusedAs (step s) w) = true ∧
    (([0x01, 0x08, 0x81, 0x9E] : List MicroWord).all fun w =>
      let s : State := { (at_ 0).withFetchWord 8 w.toNat with edge := 0 }
      !s.pins.rst && s.busy && s.fetch == w && nextIs (step s) fun _ => true) = true := by decide

theorem witness_StepRunsTheEventOfTheEdge :
    ({ at_ 0 with inputs := [{ rst := true, start := true, x_in := 0 }] } : State).pins.rst = true ∧
    ((at_ 0).pins.rst = false ∧ (at_ 0).busy = true ∧ decode (.micro ((at_ 0).urom.read (at_ 0).upc)) = .ok .guard) ∧
    ((at_ 25).pins.rst = false ∧ (at_ 25).busy = true ∧
      decode (.micro ((at_ 25).urom.read (at_ 25).upc)) = .error (.reservedMicroop 0x00)) ∧
    (let s : State := { at_ 0 with busy := false, inputs := [{ quiet with start := true }] }
     s.pins.rst = false ∧ s.busy = false ∧ s.pins.start = true) ∧
    (let s : State := { at_ 0 with busy := false }
     s.pins.rst = false ∧ s.busy = false ∧ s.pins.start = false) :=
  ⟨rfl, ⟨rfl, rfl, rfl⟩, ⟨rfl, rfl, rfl⟩, ⟨rfl, rfl, rfl⟩, ⟨rfl, rfl, rfl⟩⟩

theorem witness_PlacedWordRunsNext :
    decode (.micro (BitVec.ofNat 8 0x84)) = .ok (.rot 4) ∧ (1 : Upc) ≠ State.reset.upc := ⟨rfl, by decide⟩

theorem witness_ResetEdgeDrivesControlState :
    ({ at_ 3 with inputs := [{ rst := true, start := true, x_in := 0xFFFF }] } : State).pins.rst = true := rfl

/-- Reset held over two edges of a transaction, no new request. -/
theorem witness_ResetAbandonsTransaction :
    let held : PortInputs := { rst := true, start := false, x_in := 0 }
    let s : State := { at_ 3 with inputs := [{ held with start := true }, held] }
    s.busy = true ∧ (s.pinsAt 0).rst = true ∧ ∀ m, 1 ≤ m → m ≤ 1 → (s.pinsAt m).start = false := by
  refine ⟨rfl, rfl, fun m h1 h2 => ?_⟩
  obtain rfl : m = 1 := by omega
  rfl

theorem witness_IdleHoldsEveryRegister :
    let s : State := { State.reset with inputs := [quiet, quiet], r := 5, done := true }
    s.busy = false ∧ ∀ m, m < 2 → (s.pinsAt m).rst = false ∧ (s.pinsAt m).start = false := by
  decide

theorem witness_InputsIgnoredOutsideAccept :
    let p : PortInputs := { rst := true, start := true, x_in := 1 }
    let p' : PortInputs := { rst := true, start := false, x_in := 2 }
    (p'.rst = p.rst ∧ p.rst = true) ∧
    (quiet.rst = { quiet with x_in := 7 }.rst ∧ (at_ 1).busy = true) ∧
    (quiet.start = false ∧ { quiet with x_in := 7 }.start = false) := by decide

/-- The two ends of the range in which the quotient does not wrap. -/
theorem witness_MulqTakesProductBits :
    let a : State := { State.reset with xw := 0xF80000 }
    let b : State := { State.reset with xw := 0x080000 }
    (-524288 ≤ a.xw.toInt ∧ a.xw.toInt ≤ 524288) ∧ -524288 ≤ b.xw.toInt ∧ b.xw.toInt ≤ 524288 := by decide

/-- The least and the greatest difference that fit. -/
theorem witness_ResidSubtractsMultipleOfLn2 :
    let a : State := { State.reset with xw := 0x800000, k := 0x00 }
    let b : State := { State.reset with xw := 0x7FFFFF, k := 0x00 }
    (-8388608 ≤ a.xw.toInt - a.k.toInt * 45426 ∧ a.xw.toInt - a.k.toInt * 45426 < 8388608) ∧
    -8388608 ≤ b.xw.toInt - b.k.toInt * 45426 ∧ b.xw.toInt - b.k.toInt * 45426 < 8388608 := by decide

theorem witness_InitLoadsCordicRegisters : State.reset.kinvRaw = 0x26A3D0E4 := rfl

/-- Both directions, at both ends of the index range; z = 0 counts as non-negative. -/
theorem witness_RotIsPseudoRotation :
    (1 ≤ (1 : RotIndex).toNat ∧ (1 : RotIndex).toNat ≤ 30) ∧ (1 ≤ (30 : RotIndex).toNat ∧ (30 : RotIndex).toNat ≤ 30) ∧
    0 ≤ State.reset.z.toInt ∧ { State.reset with z := 0xFFFFFFFF }.z.toInt < 0 := by decide

theorem witness_RotOutsideTableIsRefused :
    refusedAs (exec (.rot 0) State.reset) 0x80 = true ∧ refusedAs (exec (.rot 31) State.reset) 0x9F = true := by decide

/-- Both clauses, at 0, at the greatest sum, at -1 and at the least sum. -/
theorem witness_SumClampsAndNarrows :
    nextIs (exec .sum State.reset) (fun t => decide (0 ≤ t.e.toInt) && t.eo == 0x000000) = true ∧
    nextIs (exec .sum { State.reset with x := 0x7FFFFFFF }) (fun t => decide (0 ≤ t.e.toInt) && t.eo == 0xFFFFFF) = true ∧
    nextIs (exec .sum { State.reset with x := 0xFFFFFFFF }) (fun t => decide (t.e.toInt < 0) && t.eo == 0x000000) = true ∧
    nextIs (exec .sum { State.reset with x := 0x80000000 }) (fun t => decide (t.e.toInt < 0) && t.eo == 0x000000) = true := by
  decide

/-- Every clause: k = -1, 0, 1 and the ends -24 and 24 of the last. -/
theorem witness_ReconScalesAndEnds :
    (0xFF : KWord).toInt < 0 ∧ (0x00 : KWord).toInt = 0 ∧ 0 < (0x01 : KWord).toInt ∧ (0xE8 : KWord).toInt ≤ -24 ∧
    24 ≤ (0x18 : KWord).toInt ∧
    nextIs (exec .recon { State.reset with eo := 0xFFFFFF, k := 0xE9 }) (fun t => t.y_out == 0x000001) = true ∧
    nextIs (exec .recon { State.reset with eo := 0xFFFFFF, k := 0xE8 }) (fun t => t.y_out == 0x000000) = true ∧
    nextIs (exec .recon { State.reset with eo := 0x000001, k := 0x17 }) (fun t => t.y_out == 0x800000) = true ∧
    nextIs (exec .recon { State.reset with eo := 0x000001, k := 0x18 }) (fun t => t.y_out == 0x000000) = true := by decide

theorem witness_EvalAcceptsOperand :
    let s : State := { State.reset with inputs := [{ rst := false, start := true, x_in := 0x8000 }] }
    s.busy = false ∧ s.pins.rst = false ∧ s.pins.start = true := ⟨rfl, rfl, rfl⟩

theorem witness_RequestWhileBusyIsLost : (at_ 5).busy = true := rfl

/-- An idle state of this hardware whose next `n` edges are free of reset. -/
def idleFor (n : Nat) : State := { State.reset with inputs := List.replicate n { quiet with start := true, x_in := 0xF000 } }

theorem noReset_idleFor (n : Nat) : NoReset (idleFor n) n := by
  intro m hm
  simp [State.pinsAt, idleFor, hm, quiet]

theorem witness_EvalDeliversEvaluate :
    ThisHardware (idleFor 25) ∧ (idleFor 25).busy = false ∧ NoReset (idleFor 25) 25 := ⟨⟨rfl, rfl⟩, rfl, noReset_idleFor 25⟩

/-- The default micro-program is held by the constant store. -/
theorem uromHolds_default (s : State) (h : s.urom = []) : UromHolds s (microProgram 15 [4, 13]) := by
  have table : ∀ a : Fin 25, Memory.read [] (BitVec.ofNat 6 a) =
      ((encodeBytes (microProgram 15 [4, 13]))[a.val]?).getD 0 := by decide
  intro a w ha
  have hl : a < 25 := by
    have := (List.getElem?_eq_some_iff.1 ha).1
    rwa [show (encodeBytes (microProgram 15 [4, 13])).length = 25 by decide] at this
  have := table ⟨a, hl⟩
  simp only [ha] at this
  simpa [h] using this

theorem witness_AnyMicroProgramDelivers :
    1 ≤ 15 ∧ 15 ≤ 30 ∧ (microProgram 15 [4, 13]).length ≤ 64 ∧ UromHolds (idleFor 26) (microProgram 15 [4, 13]) ∧
    (idleFor 26).busy = false ∧ ((idleFor 26).pinsAt 0).start = true ∧
    NoReset (idleFor 26) ((microProgram 15 [4, 13]).length + 1) :=
  ⟨by decide, by decide, by decide, uromHolds_default _ rfl, rfl, rfl,
    by rw [show (microProgram 15 [4, 13]).length + 1 = 26 by decide]; exact noReset_idleFor 26⟩

/-- The same at the two ends of the stage counts, 1 without repeats and 30 with both, and with another gain-inverse word. -/
theorem witness_AnyMicroProgramDelivers_ends :
    let s : State := { idleFor 42 with urom := uromWith (microProgram 1 []), kinvRaw := 0x20000000 }
    let t : State := { idleFor 42 with urom := uromWith (microProgram 30 [4, 13]) }
    ((microProgram 1 []).length = 9 ∧ UromHolds s (microProgram 1 []) ∧ s.busy = false ∧ (s.pinsAt 0).start = true ∧
      NoReset s 10) ∧
    ((microProgram 30 [4, 13]).length = 40 ∧ UromHolds t (microProgram 30 [4, 13]) ∧ t.busy = false ∧
      (t.pinsAt 0).start = true ∧ NoReset t 41) :=
  ⟨⟨by decide, uromHolds_uromWith rfl (by decide), rfl, rfl, fun m h => noReset_idleFor 42 m (by omega)⟩,
    by decide, uromHolds_uromWith rfl (by decide), rfl, rfl, fun m h => noReset_idleFor 42 m (by omega)⟩

/-- Two states that differ in what the registers hold. -/
theorem witness_ResultDependsOnOperandOnly :
    let s := idleFor 26
    let s' : State := { idleFor 26 with x := 7, y_out := 3, done := true }
    ThisHardware s ∧ ThisHardware s' ∧ s.busy = false ∧ s'.busy = false ∧ NoReset s 26 ∧ NoReset s' 26 ∧
    (s.pinsAt 0).start = true ∧ (s'.pinsAt 0).start = true ∧ (s.pinsAt 0).x_in = (s'.pinsAt 0).x_in :=
  ⟨⟨rfl, rfl⟩, ⟨rfl, rfl⟩, rfl, rfl, noReset_idleFor 26, noReset_idleFor 26, rfl, rfl, rfl⟩

theorem witness_WritesOnlyListedRegisters :
    exec .widen State.reset = .next (State.reset.setXw 0).advance ∧ Reg.xin ∉ mayWrite .widen := ⟨rfl, by decide⟩

/-- Two states that agree on what `WIDEN` reads, `xg`, and on nothing else. -/
theorem witness_ResultsDependOnListedReads :
    let s : State := { State.reset with xin := 1, xw := 2 }
    isMicroOperation .widen = true ∧ State.reset.kinvRaw = s.kinvRaw ∧ (∀ reg, reg ∈ readsOf .widen → State.reset.reg reg = s.reg reg) ∧
    exec .widen State.reset = .next (State.reset.setXw 0).advance ∧ exec .widen s = .next (s.setXw 0).advance ∧
    Reg.xw ∈ writesOf .widen := by
  refine ⟨rfl, rfl, fun reg h => ?_, rfl, rfl, by decide⟩
  obtain rfl : reg = .xg := by simpa [readsOf] using h
  rfl

/-- An edge of each kind without reset: accept, a step that goes on, a step that ends, idle. -/
theorem witness_CounterMovesOnlyForward :
    (∃ t, step (idleFor 1) = .next t ∧ (idleFor 1).pins.rst = false ∧ (idleFor 1).busy = false ∧
      (idleFor 1).pins.start = true) ∧
    (∃ t, step (at_ 1) = .next t ∧ (at_ 1).pins.rst = false ∧ (at_ 1).busy = true ∧ t.busy = true) ∧
    (∃ t, step (at_ 24) = .next t ∧ (at_ 24).pins.rst = false ∧ (at_ 24).busy = true ∧ t.busy = false) ∧
    (∃ t, step { at_ 24 with busy := false } = .next t ∧ (at_ 24).pins.rst = false ∧ (at_ 24).pins.start = false) :=
  ⟨⟨_, rfl, rfl, rfl, rfl⟩, ⟨_, rfl, rfl, rfl, rfl⟩, ⟨_, rfl, rfl, rfl, rfl⟩, ⟨_, rfl, rfl, rfl⟩⟩

theorem witness_OnlyTheEndWritesTheResult :
    ∃ t, step { at_ 24 with eo := 0x000001 } = .next t ∧ (at_ 24).pins.rst = false ∧ t.y_out ≠ (at_ 24).y_out :=
  ⟨_, rfl, rfl, by decide⟩

theorem witness_BusyAndDoneExclusive :
    ∃ t, step (at_ 24) = .next t ∧ ¬ ((at_ 24).busy = true ∧ (at_ 24).done = true) := ⟨_, rfl, by decide⟩

/-- A state whose `UROM` is not the constant one, in canonical form. -/
theorem witness_StoreIsNeverWritten :
    let s : State := (at_ 0).withFetchWord 8 0x84
    (∃ t, step s = .next t) ∧ s.urom = [(0, 0x84)] ∧ s.urom.wf :=
  ⟨⟨_, rfl⟩, by decide, by decide⟩

/-- The accepted state has the invariant, and its next edge answers. -/
theorem witness_InvariantIsKept : Inv (at_ 0) ∧ ∃ t, step (at_ 0) = .next t := by
  refine ⟨⟨⟨rfl, rfl⟩, by decide, fun _ => ?_, by decide⟩, ⟨_, rfl⟩⟩
  simp [TransactionInProgress, at_]

theorem witness_InvariantRulesOutRefusal : Inv State.reset :=
  ⟨⟨rfl, rfl⟩, by decide, fun h => absurd h (by decide), by decide⟩

/-- The ends of the guarded operands, and the one with the negative residual. -/
theorem witness_ReducerRanges :
    (0x8000 : InWord).toInt ≤ 0 ∧ (0x0000 : InWord).toInt ≤ 0 ∧ (0xB25E : InWord).toInt ≤ 0 ∧
    (reduce 0x8000).1.toInt = -12 ∧ (reduce 0xB25E).2.toInt = -2 ∧ (reduce 0xBD75).2.toInt = 45422 := by decide

theorem witness_OneNegativeResidual : (0xB25E : InWord).toInt ≤ 0 ∧ (reduce 0xB25E).2.toInt < 0 := by decide

/-- Both ends of the residuals, the first and the last rotation, both directions. -/
theorem witness_NoRotationWraps :
    (-2 ≤ (0xFFFFFE : RrWord).toInt ∧ (0xFFFFFE : RrWord).toInt ≤ 45422) ∧
    (-2 ≤ (0x00B16E : RrWord).toInt ∧ (0x00B16E : RrWord).toInt = 45422) ∧
    (schedule 15 [4, 13])[0]? = some 1 ∧ (schedule 15 [4, 13])[16]? = some 15 ∧
    ¬ 0 ≤ (initialRegs kinv 0xFFFFFE).z.toInt ∧ 0 ≤ (initialRegs kinv 0x00B16E).z.toInt := by decide

theorem witness_ResidualAngleConverges :
    -2 ≤ (0xFFFFFE : RrWord).toInt ∧ (0x00B16E : RrWord).toInt ≤ 45422 := by decide

theorem witness_PositiveOperandsSaturate : 0 < (0x0001 : InWord).toInt ∧ 0 < (0x7FFF : InWord).toInt := by decide

theorem witness_NarrowingAndScalingCommute : (0x3FFFFFFF : CordicWord).toNat < 0x40000000 := by decide

theorem witness_AtanhTableIsTruncated :
    (1 ≤ 1 ∧ 1 ≤ 30 ∧ (atanhWord 1).toInt = 294906490) ∧ 1 ≤ 30 ∧ 30 ≤ 30 ∧ (atanhWord 30).toInt = 0 := by decide

/-- Parameters at both ends of the bounds, and one beside each end: 0, 31, a member 0 and a member N + 1. -/
theorem witness_ParametersAreBounded :
    let low : Params := { stageCount := 1, repeatSet := [1], kinv := kinv }
    let high : Params := { stageCount := 30, repeatSet := [1, 30], kinv := kinv }
    (1 ≤ low.stageCount ∧ (∀ i ∈ low.repeatSet, 1 ≤ i ∧ i ≤ low.stageCount) ∧ low.program.length ≤ 64) ∧
    (high.stageCount ≤ 30 ∧ (∀ i ∈ high.repeatSet, 1 ≤ i ∧ i ≤ high.stageCount) ∧ high.program.length ≤ 64) ∧
    ({ low with stageCount := 0 }.stageCount = 0 ∧ 30 < { high with stageCount := 31 }.stageCount ∧
      (∃ i ∈ { low with repeatSet := [0] }.repeatSet, i = 0) ∧
      ∃ i ∈ { high with repeatSet := [31] }.repeatSet, high.stageCount < i) ∧
    ThisHardware State.reset :=
  ⟨by decide, by decide, by decide, ⟨rfl, rfl⟩⟩

/-- Two instances, one stopped; the other accepts and gets 26 edges of its clock, between edges of the stopped one. -/
theorem witness_InstancesAreIndependent :
    let system : List Instance := [.refused (.reservedMicroop 0), .next (idleFor 26)]
    let order : List Nat := 0 :: List.replicate 26 1 ++ [0]
    system[1]? = some (.next (idleFor 26)) ∧ Inv (idleFor 26) ∧ ThisHardware (idleFor 26) ∧ (idleFor 26).busy = false ∧
    ((idleFor 26).pinsAt 0).start = true ∧ NoReset (idleFor 26) 26 ∧ order.count 1 = 26 :=
  ⟨rfl, ⟨⟨rfl, rfl⟩, by decide, fun h => absurd h (by decide), by decide⟩, ⟨rfl, rfl⟩, rfl, rfl, noReset_idleFor 26,
    by decide⟩

end Sys2Proof.Tests
end

/-! PROOF. The scope statements: the bounds of R9 on the parameters, the block built within them, and the members of `R`
that have no effect. -/

namespace Sys2Proof.Machine

/-! ## The bounds of R9 -/

theorem Params.legal_iff (p : Params) :
    p.legal = true ↔ (1 ≤ p.stageCount ∧ p.stageCount ≤ 30) ∧ ∀ i ∈ p.repeatSet, 1 ≤ i ∧ i ≤ p.stageCount := by
  simp [Params.legal]

/-- Each way to leave the bounds of R9: no stage, more than 30, or a repeated index that is no stage. -/
theorem Params.legal_eq_false_of_outOfBounds {p : Params}
    (h : p.stageCount = 0 ∨ 30 < p.stageCount ∨ ∃ i ∈ p.repeatSet, i = 0 ∨ p.stageCount < i) : p.legal = false := by
  rw [Bool.eq_false_iff, Ne, Params.legal_iff]
  rintro ⟨hn, hr⟩
  obtain h | h | ⟨i, hi, h⟩ := h
  · omega
  · omega
  · have := hr i hi
    omega

theorem evaluateWith_of_legal {p : Params} (h : p.legal = true) (v : InWord) :
    evaluateWith p v = some (evaluateUnder p v) := if_pos h

theorem evaluateWith_of_not_legal {p : Params} (h : p.legal = false) (v : InWord) : evaluateWith p v = none := by
  simp [evaluateWith, h]

/-! ## The block built with parameters -/

theorem State.withParams_of_legal (s : State) {p : Params} (h : p.legal = true) (hl : p.program.length ≤ 64) :
    s.withParams p = some { s with urom := uromWith p.program, kinvRaw := p.kinv } := by
  simp [State.withParams, h, hl]

theorem State.withParams_of_not_legal (s : State) {p : Params} (h : p.legal = false) : s.withParams p = none := by
  simp [State.withParams, h]

/-- After the bytes of a program comes 0x00 (R42). -/
theorem uromByte_of_length_le {program : List Instr} {a : Nat} (h : program.length ≤ a) : uromByte program a = 0x00 := by
  have hb : (encodeBytes program).length ≤ a := (List.length_filterMap_le _ _).trans h
  rw [uromByte, List.getElem?_eq_none hb, Option.getD_none]

/-- A built block differs from `s` in its two stores alone, and its `UROM` is the micro-program and then 0x00. -/
theorem State.withParams_block {s t : State} {p : Params} (h : s.withParams p = some t) :
    t = { s with urom := t.urom, kinvRaw := p.kinv } ∧ t.urom.wf ∧ UromHolds t p.program ∧
      ∀ a : Upc, p.program.length ≤ a.toNat → t.urom.read a = 0x00 := by
  obtain ⟨-, hl, ht⟩ := State.withParams_cases h
  have hu : t.urom = uromWith p.program := by rw [ht]
  rw [hu]
  refine ⟨ht, uromWith_wf _, uromHolds_uromWith hu hl, fun a ha => ?_⟩
  rw [uromWith_read, uromByte_of_length_le ha]

/-- The default micro-program is the constant contents (R42), so the store built for it lists no entry. -/
theorem uromWith_defaultParams : uromWith defaultParams.program = [] := by decide

theorem State.withParams_defaultParams {s : State} (h : ThisHardware s) : s.withParams defaultParams = some s := by
  obtain ⟨hu, hk⟩ := h
  rw [State.withParams_of_legal s (by decide) (by decide), uromWith_defaultParams, ← hu,
    show defaultParams.kinv = s.kinvRaw from hk.symm]

/-- Settles O50: within the bounds the block is the one `State.withParams_block` describes, outside them `legal` fails. -/
theorem parametersAreBounded : Obligations.ParametersAreBounded := by
  refine ⟨fun s p hlo hhi hr => ?_, fun s p h => ?_, fun s h => State.withParams_defaultParams h⟩
  · have hp : p.legal = true := p.legal_iff.2 ⟨⟨hlo, hhi⟩, hr⟩
    refine ⟨evaluateWith_of_legal hp, fun hl => ?_⟩
    have ht := s.withParams_of_legal hp hl
    exact ⟨_, ht, State.withParams_block ht⟩
  · have hp := Params.legal_eq_false_of_outOfBounds h
    exact ⟨s.withParams_of_not_legal hp, evaluateWith_of_not_legal hp⟩

/-! ## Members of `R` outside 1..N -/

/-- The rotation sequence asks of `R` only which of the indices 1 to N are in it (R104). -/
theorem schedule_congr {n : Nat} {rep rep' : List Nat} (h : ∀ i, 1 ≤ i → i ≤ n → (i ∈ rep ↔ i ∈ rep')) :
    schedule n rep = schedule n rep' := by
  refine List.flatMap_congr fun i hi => ?_
  obtain ⟨j, hj, rfl⟩ := List.mem_map.1 hi
  have hlt := List.mem_range.1 hj
  simp only [h (j + 1) (by omega) (by omega)]

@[simp] theorem Params.effective_stageCount (p : Params) : p.effective.stageCount = p.stageCount := rfl
@[simp] theorem Params.effective_kinv (p : Params) : p.effective.kinv = p.kinv := rfl

@[simp] theorem Params.mem_effective_repeatSet (p : Params) (i : Nat) :
    i ∈ p.effective.repeatSet ↔ i ∈ p.repeatSet ∧ 1 ≤ i ∧ i ≤ p.stageCount := by
  simp [Params.effective]

@[simp] theorem Params.schedule_effective (p : Params) :
    schedule p.stageCount p.effective.repeatSet = schedule p.stageCount p.repeatSet :=
  schedule_congr fun i hlo hhi => by simp [hlo, hhi]

theorem Params.program_effective (p : Params) : p.effective.program = p.program := by
  simp [Params.program, microProgram]

theorem cordicWith_effective (p : Params) (r : RrWord) : cordicWith p.effective r = cordicWith p r := by
  simp [cordicWith]

theorem evaluateUnder_effective (p : Params) (v : InWord) : evaluateUnder p.effective v = evaluateUnder p v := by
  simp only [evaluateUnder, cordicWith_effective]

theorem Params.legal_effective_iff (p : Params) :
    p.effective.legal = true ↔ 1 ≤ p.stageCount ∧ p.stageCount ≤ 30 := by
  rw [Params.legal_iff]
  exact and_iff_left fun i hi => (p.mem_effective_repeatSet i).1 hi |>.2

/-- Settles O51: program and result depend on `R` through the rotation sequence alone, which sees only 1..N. -/
theorem repeatsOutsideTheStagesHaveNoEffect : Obligations.RepeatsOutsideTheStagesHaveNoEffect := fun p =>
  ⟨p.schedule_effective, p.program_effective, evaluateUnder_effective p, p.legal_effective_iff⟩

/-! ## The gain-inverse word -/

/-- Settles O49: the meaning of `INIT` is this update, field by field. -/
theorem initReadsTheGainInverse : Obligations.InitReadsTheGainInverse := fun _ => rfl

end Sys2Proof.Machine

/-! PROOF. The statements about the state as a whole: what an instruction leaves unchanged and what its results depend on,
the order of writes before reads, and from these three that a transaction depends on its operand alone; `busy` and `done`;
the state after reset. -/

namespace Sys2Proof.Machine

/-! ## The frame of each update, in terms of the registers by name -/

section Frame
variable (s : State) {reg : Reg}

@[simp] theorem State.reg_tick : s.tick.reg reg = s.reg reg := by cases reg <;> rfl

@[simp] theorem State.reg_advance (h : reg ≠ .upc) : s.advance.reg reg = s.reg reg := by
  cases reg <;> simp_all [State.reg]

@[simp] theorem State.reg_finish (v : OutWord) (h : reg ∉ [.y_out, .done, .busy]) :
    (s.finish v).reg reg = s.reg reg := by
  cases reg <;> simp_all [State.reg]

@[simp] theorem State.reg_accept (v : InWord) (h : reg ∉ [.xin, .busy, .done, .upc]) :
    (s.accept v).reg reg = s.reg reg := by
  cases reg <;> simp_all [State.reg]

@[simp] theorem State.reg_setGuard (v : InWord) (f : Bool) (h : reg ∉ [.xg, .zf]) :
    (s.setGuard v f).reg reg = s.reg reg := by
  cases reg <;> simp_all [State.reg]

@[simp] theorem State.reg_setXw (v : RrWord) (h : reg ≠ .xw) : (s.setXw v).reg reg = s.reg reg := by
  cases reg <;> simp_all [State.reg]

@[simp] theorem State.reg_setQ (v : RrWord) (h : reg ≠ .q) : (s.setQ v).reg reg = s.reg reg := by
  cases reg <;> simp_all [State.reg]

@[simp] theorem State.reg_setK (v : KWord) (h : reg ≠ .k) : (s.setK v).reg reg = s.reg reg := by
  cases reg <;> simp_all [State.reg]

@[simp] theorem State.reg_setR (v : RrWord) (h : reg ≠ .r) : (s.setR v).reg reg = s.reg reg := by
  cases reg <;> simp_all [State.reg]

@[simp] theorem State.reg_setCordicRegs (c : CordicRegs) (h : reg ∉ [.x, .y, .z]) :
    (s.setCordicRegs c).reg reg = s.reg reg := by
  cases reg <;> simp_all [State.reg]

@[simp] theorem State.reg_setSum (t : CordicWord) (v : OutWord) (h : reg ∉ [.e, .eo]) :
    (s.setSum t v).reg reg = s.reg reg := by
  cases reg <;> simp_all [State.reg]

end Frame

/-! ## What an instruction leaves unchanged -/

section Exec
variable {i : Instr} {s t : State}

/-- Each update that `exec_cases` lists keeps the other registers by its frame lemma above. -/
theorem exec_keeps_unlisted (h : exec i s = .next t) {reg : Reg} (hr : reg ∉ mayWrite i) :
    t.reg reg = s.reg reg := by
  rcases exec_cases h with ⟨rfl, -, rfl⟩ | ⟨rfl, -, rfl⟩ | ⟨rfl, rfl⟩ | ⟨rfl, rfl⟩ | ⟨rfl, rfl⟩ | ⟨rfl, rfl⟩ | ⟨rfl, rfl⟩ |
    ⟨idx, rfl, -, rfl⟩ | ⟨rfl, rfl⟩ | ⟨rfl, rfl⟩ | ⟨v, rfl, -, rfl⟩ | ⟨v, rfl, -, rfl⟩ <;>
  simp_all [mayWrite]

/-- No instruction touches the stores, the pending inputs or the edge counter. -/
theorem exec_keeps_rest (h : exec i s = .next t) :
    t.urom = s.urom ∧ t.kinvRaw = s.kinvRaw ∧ t.inputs = s.inputs ∧ t.edge = s.edge := by
  rcases exec_cases h with ⟨-, -, rfl⟩ | ⟨-, -, rfl⟩ | ⟨-, rfl⟩ | ⟨-, rfl⟩ | ⟨-, rfl⟩ | ⟨-, rfl⟩ | ⟨-, rfl⟩ |
    ⟨idx, -, -, rfl⟩ | ⟨-, rfl⟩ | ⟨-, rfl⟩ | ⟨v, -, -, rfl⟩ | ⟨v, -, -, rfl⟩ <;>
  exact ⟨rfl, rfl, rfl, rfl⟩

theorem exec_pinsAt (h : exec i s = .next t) (n : Nat) : t.pinsAt n = s.pinsAt n := by
  obtain ⟨-, -, hin, hedge⟩ := exec_keeps_rest h
  exact State.pinsAt_congr hin hedge n

/-- A micro-operation other than `RECON` goes on to the next entry; `GUARD` too, as its zero shortcut is dead (R74). -/
theorem exec_continues (h : exec i s = .next t) (hm : isMicroOperation i = true) (hi : i ≠ .recon) :
    t.busy = s.busy ∧ t.upc = s.upc + 1 := by
  rcases exec_cases h with ⟨rfl, hz, rfl⟩ | ⟨-, -, rfl⟩ | ⟨-, rfl⟩ | ⟨-, rfl⟩ | ⟨-, rfl⟩ | ⟨-, rfl⟩ | ⟨-, rfl⟩ |
    ⟨idx, -, -, rfl⟩ | ⟨-, rfl⟩ | ⟨rfl, -⟩ | ⟨v, rfl, -, -⟩ | ⟨v, rfl, -, -⟩ <;>
  simp_all [isMicroOperation]

theorem exec_guard (s : State) :
    exec .guard s = .next (s.setGuard (guardedOperand s.xin) false).advance := if_neg (by simp)

theorem exec_rot_next {idx : RotIndex} (h : exec (.rot idx) s = .next t) :
    t = (s.setCordicRegs (rotate (rotOperand idx) s.cordicRegs)).advance := by
  obtain ⟨-, ht⟩ : legalIndex idx = true ∧ _ := by simpa using exec_cases h
  exact ht

/-- A micro-operation writes no register but those listed on every path, and `upc`. -/
theorem exec_keeps_unwritten (h : exec i s = .next t) (hm : isMicroOperation i = true) {reg : Reg}
    (hw : reg ∉ writesOf i) (hu : reg ≠ .upc) : t.reg reg = s.reg reg := by
  cases i with
  | guard =>
    rw [exec_guard] at h
    cases h
    simp_all [writesOf]
  | eval v => cases hm
  | _ => exact exec_keeps_unlisted h (by simp_all [mayWrite, writesOf])

/-- Every instruction that is well formed answers a next state. -/
theorem exec_answers_of_wf (h : i.wf = true) (s : State) : ∃ t, exec i s = .next t := by
  cases i with
  | guard => exact ⟨_, exec_guard s⟩
  | rot idx => exact ⟨_, if_pos h⟩
  | eval v =>
    rcases hb : s.busy with _ | _
    · exact ⟨_, if_neg (by simp [hb])⟩
    · exact ⟨_, if_pos hb⟩
  | _ => exact ⟨_, rfl⟩

end Exec

/-- Settles O26: `exec_keeps_unlisted` for the registers, `exec_keeps_rest` for the other fields. -/
theorem writesOnlyListedRegisters : Obligations.WritesOnlyListedRegisters := by
  intro i s t h
  obtain ⟨hu, hk, hin, hedge⟩ := exec_keeps_rest h
  exact ⟨fun _ hr => exec_keeps_unlisted h hr, ⟨fun a => by rw [hu], hk⟩, hin, hedge⟩

/-! ## What the results of a micro-operation depend on -/

/-- Settles O27: the new values are functions of the registers read (and of `KINV`), one case for each micro-operation. -/
theorem resultsDependOnListedReads : Obligations.ResultsDependOnListedReads := by
  intro i s s' t t' hm hk hr h h'
  cases i with
  | eval v => cases hm
  | guard =>
    rw [exec_guard] at h h'
    cases h; cases h'
    simp_all [readsOf, writesOf, State.reg, BitVec.toNat_inj]
  | rot idx =>
    obtain rfl := exec_rot_next h
    obtain rfl := exec_rot_next h'
    simp_all [readsOf, writesOf, State.reg, State.cordicRegs, BitVec.toNat_inj]
  | _ =>
    cases h; cases h'
    simp_all [readsOf, writesOf, State.reg, BitVec.toNat_inj]

/-! ## The order of writes before reads -/

/-- Once the vector registers and `k` are written, rotations and the two micro-operations after them read nothing else. -/
theorem writtenBeforeRead_rotations (l : List Nat) {written : List Reg} (h : [.x, .y, .z, .k] ⊆ written) :
    writtenBeforeRead written (l.map rotInstr ++ [.sum, .recon]) = true := by
  induction l generalizing written with
  | nil => simp_all [writtenBeforeRead, readsOf, writesOf]
  | cons i l ih =>
    have hl := ih (written := writesOf (rotInstr i) ++ written) (List.subset_append_of_subset_right _ h)
    simp_all [writtenBeforeRead, readsOf, rotInstr]

/-- Settles O28: the six micro-operations before the rotations are checked one by one, the rotations by induction. -/
theorem everyRegisterWrittenBeforeRead : Obligations.EveryRegisterWrittenBeforeRead := by
  intro n rep
  have h := writtenBeforeRead_rotations (schedule n rep)
    (written := [.x, .y, .z, .r, .k, .q, .xw, .xg, .zf, .xin]) (by decide)
  simpa [microProgram, writtenBeforeRead, readsOf, writesOf] using h

/-! ## One transaction, edge by edge -/

/-- A transaction of this hardware whose next micro-operation is entry `n` of `UROM`, and whose next `k` edges are free of
reset. -/
structure AtEntry (n k : Nat) (s : State) : Prop where
  hardware : ThisHardware s
  busy : s.busy = true
  upc : s.upc = BitVec.ofNat 6 n
  noReset : NoReset s k

/-- The constant `UROM` decodes entry by entry to the micro-program of this hardware (R66). -/
theorem decodeMicro_uromConstant {n : Nat} {i : Instr} (h : defaultParams.program[n]? = some i) :
    decodeMicro (Memory.read [] (BitVec.ofNat 6 n)) = .ok i := by
  have hbytes : decodeBytes defaultProgramBytes = defaultParams.program.map .ok := rfl
  have hn : (decodeBytes defaultProgramBytes)[n]? = some (.ok i) := by simp [hbytes, h]
  obtain ⟨w, hw, hd⟩ : ∃ w, defaultProgramBytes[n]? = some w ∧ decodeMicro w = .ok i := by
    simpa [decodeBytes] using hn
  have hlt : n < 25 := (List.getElem?_eq_some_iff.1 hw).1
  have hmod : (BitVec.ofNat 6 n).toNat = n := by
    rw [BitVec.toNat_ofNat]
    exact Nat.mod_eq_of_lt (by omega)
  simpa [uromConstant, hmod, hw] using hd

theorem pins_rst_of_noReset {k : Nat} {s : State} (h : NoReset s (k + 1)) : s.pins.rst = false := by
  rw [State.pins_eq_pinsAt]
  exact h 0 (by omega)

theorem noReset_tick {k : Nat} {s : State} (h : NoReset s (k + 1)) : NoReset s.tick k := fun m hm => by
  rw [State.pinsAt_tick]
  exact h (m + 1) (by omega)

section AtEntry
variable {n k : Nat} {i : Instr} {s t : State}

theorem AtEntry.step_eq_exec (hs : AtEntry n (k + 1) s) (hi : defaultParams.program[n]? = some i) :
    step s = exec i s.tick := by
  have hd : decodeMicro s.fetch = .ok i := by
    rw [State.fetch, hs.hardware.1, hs.upc]
    exact decodeMicro_uromConstant hi
  simp [step, State.event_busy (pins_rst_of_noReset hs.noReset) hs.busy, eventOf, decode, hd]

theorem AtEntry.next (hs : AtEntry n (k + 1) s) (hm : isMicroOperation i = true) (hi : i ≠ .recon)
    (h : exec i s.tick = .next t) : AtEntry (n + 1) k t := by
  obtain ⟨hu, hk, -, -⟩ := exec_keeps_rest h
  obtain ⟨hb, hc⟩ := exec_continues h hm hi
  exact {
    hardware := ⟨hu.trans hs.hardware.1, hk.trans hs.hardware.2⟩
    busy := hb.trans hs.busy
    upc := by rw [hc, State.tick_upc, hs.upc, BitVec.ofNat_add]; rfl
    noReset := fun m hm => by rw [exec_pinsAt h]; exact noReset_tick hs.noReset m hm }

/-- The edge that accepts the word on `x_in` (R131) leads to entry 0. -/
theorem AtEntry.accept (hw : ThisHardware s) (hn : NoReset s (k + 1)) : AtEntry 0 k (s.tick.accept s.pins.x_in) where
  hardware := hw
  busy := rfl
  upc := rfl
  noReset := noReset_tick hn

theorem step_accept (hr : s.pins.rst = false) (hb : s.busy = false) (hs : s.pins.start = true) :
    step s = .next (s.tick.accept s.pins.x_in) := by
  simp [step, State.event_start hr hb hs, exec, execEval, hb]

end AtEntry

/-! ## Two transactions in lockstep -/

/-- The two states agree on the registers of `W`, on `upc` and on the word `KINV`. -/
structure Agree (W : List Reg) (s s' : State) : Prop where
  kinvRaw : s.kinvRaw = s'.kinvRaw
  upc : s.upc = s'.upc
  reg : ∀ reg ∈ W, s.reg reg = s'.reg reg

section Lockstep
variable {i : Instr} {W : List Reg} {s s' t t' : State}

theorem Agree.outputs (h : Agree W s s') (hW : [.y_out, .done, .busy] ⊆ W) : s.outputs = s'.outputs := by
  have hy : s.y_out = s'.y_out := BitVec.eq_of_toNat_eq (h.reg .y_out (hW (by simp)))
  have hd : s.done = s'.done := Function.LeftInverse.injective Bool.ofNat_toNat (h.reg .done (hW (by simp)))
  have hb : s.busy = s'.busy := Function.LeftInverse.injective Bool.ofNat_toNat (h.reg .busy (hW (by simp)))
  simp [State.outputs, hy, hd, hb]

theorem exec_upc_congr (hu : s.upc = s'.upc) (hm : isMicroOperation i = true) (h : exec i s = .next t)
    (h' : exec i s' = .next t') : t.upc = t'.upc := by
  by_cases hi : i = .recon
  · subst hi
    cases h; cases h'
    exact hu
  · rw [(exec_continues h hm hi).2, (exec_continues h' hm hi).2, hu]

/-- A micro-operation that reads only registers of `W` adds those it writes to the registers agreed on. -/
theorem Agree.exec (ha : Agree W s s') (hm : isMicroOperation i = true) (hW : ∀ reg ∈ readsOf i, reg ∈ W)
    (h : exec i s = .next t) (h' : exec i s' = .next t') : Agree (writesOf i ++ W) t t' where
  kinvRaw := by
    obtain ⟨-, hk, -, -⟩ := exec_keeps_rest h
    obtain ⟨-, hk', -, -⟩ := exec_keeps_rest h'
    rw [hk, hk', ha.kinvRaw]
  upc := exec_upc_congr ha.upc hm h h'
  reg reg hreg := by
    by_cases hw : reg ∈ writesOf i
    · exact resultsDependOnListedReads i s s' t t' hm ha.kinvRaw (fun a hra => ha.reg a (hW a hra)) h h' reg hw
    · by_cases hu : reg = .upc
      · subst hu
        exact congrArg BitVec.toNat (exec_upc_congr ha.upc hm h h')
      · rw [exec_keeps_unwritten h hm hw hu, exec_keeps_unwritten h' hm hw hu]
        exact ha.reg reg ((List.mem_append.1 hreg).resolve_left hw)

/-- One edge of two transactions at the same entry. -/
theorem step_lockstep {n k : Nat} (hs : AtEntry n (k + 1) s) (hs' : AtEntry n (k + 1) s') (ha : Agree W s s')
    (hi : defaultParams.program[n]? = some i) (hwf : i.wf = true) (hm : isMicroOperation i = true)
    (hW : ∀ reg ∈ readsOf i, reg ∈ W) :
    ∃ t t', step s = .next t ∧ step s' = .next t' ∧ Agree (writesOf i ++ W) t t' ∧
      (i ≠ .recon → AtEntry (n + 1) k t ∧ AtEntry (n + 1) k t') := by
  obtain ⟨t, ht⟩ := exec_answers_of_wf hwf s.tick
  obtain ⟨t', ht'⟩ := exec_answers_of_wf hwf s'.tick
  have htick : Agree W s.tick s'.tick := ⟨ha.kinvRaw, ha.upc, by simpa using ha.reg⟩
  exact ⟨t, t', (hs.step_eq_exec hi).trans ht, (hs'.step_eq_exec hi).trans ht', htick.exec hm hW ht ht',
    fun hne => ⟨hs.next hm hne ht, hs'.next hm hne ht'⟩⟩

/-- Two transactions at the same entry that agree on what the rest of the micro-program reads end with equal outputs. -/
theorem run_lockstep (body : List Instr) (hbody : ∀ i ∈ body, i.wf = true ∧ isMicroOperation i = true ∧ i ≠ .recon)
    {n : Nat} (hn : defaultParams.program.drop n = body ++ [.recon])
    (hW : writtenBeforeRead W (body ++ [.recon]) = true) (hs : AtEntry n (body.length + 1) s)
    (hs' : AtEntry n (body.length + 1) s') (ha : Agree W s s') :
    ∃ t t' : State, Host.Core.run core (body.length + 1) s = .next t ∧
      Host.Core.run core (body.length + 1) s' = .next t' ∧ t.outputs = t'.outputs := by
  induction body generalizing n W s s' with
  | nil =>
    have hi : defaultParams.program[n]? = some .recon := by rw [← List.head?_drop, hn]; rfl
    obtain ⟨t, t', ht, ht', hat, -⟩ :=
      step_lockstep hs hs' ha hi rfl rfl (by simpa [writtenBeforeRead] using hW)
    refine ⟨t, t', core_run_succ ht, core_run_succ ht', hat.outputs ?_⟩
    exact List.subset_append_left _ _
  | cons i body ih =>
    obtain ⟨hwf, hm, hne⟩ := hbody i List.mem_cons_self
    have hi : defaultParams.program[n]? = some i := by rw [← List.head?_drop, hn]; rfl
    have hn' : defaultParams.program.drop (n + 1) = body ++ [.recon] := by
      rw [← List.tail_drop, hn]; rfl
    obtain ⟨hreads, hrest⟩ : (∀ reg ∈ readsOf i, reg ∈ W) ∧
        writtenBeforeRead (writesOf i ++ W) (body ++ [.recon]) = true := by
      simpa [writtenBeforeRead] using hW
    obtain ⟨t, t', ht, ht', hat, hnext⟩ := step_lockstep hs hs' ha hi hwf hm hreads
    obtain ⟨htn, htn'⟩ := hnext hne
    rw [List.length_cons, core_run_succ ht, core_run_succ ht']
    exact ih (fun j hj => hbody j (List.mem_cons_of_mem _ hj)) hn' hrest htn htn' hat

end Lockstep

/-- Settles O25: after the accept the two transactions agree on `xin`, and from then on they run in lockstep, reading only
what both have written. -/
theorem resultDependsOnOperandOnly : Obligations.ResultDependsOnOperandOnly := by
  intro s s' hw hw' hb hb' hn hn' hst hst' hx
  simp only [← State.pins_eq_pinsAt] at hst hst' hx
  have ha : Agree [.xin] (s.tick.accept s.pins.x_in) (s'.tick.accept s'.pins.x_in) :=
    ⟨hw.2.trans hw'.2.symm, rfl, by simp [State.reg, hx]⟩
  have hprog : defaultParams.program = defaultParams.program.dropLast ++ [.recon] := rfl
  have hW : writtenBeforeRead [.xin] (defaultParams.program.dropLast ++ [.recon]) = true := by
    rw [← hprog]
    exact everyRegisterWrittenBeforeRead _ _
  rw [core_run_succ (step_accept (pins_rst_of_noReset hn) hb hst),
    core_run_succ (step_accept (pins_rst_of_noReset hn') hb' hst')]
  exact run_lockstep defaultParams.program.dropLast (by decide) (n := 0) hprog hW (.accept hw hn)
    (.accept hw' hn') ha

/-! ## `busy`, `done` and the invariant -/

/-- An instruction keeps both flags or clears one of them: `RECON` clears `busy`, an accept clears `done`. -/
theorem exec_flags {i : Instr} {s t : State} (h : exec i s = .next t) :
    (t.busy = s.busy ∧ t.done = s.done) ∨ t.busy = false ∨ t.done = false := by
  rcases exec_cases h with ⟨-, -, rfl⟩ | ⟨-, -, rfl⟩ | ⟨-, rfl⟩ | ⟨-, rfl⟩ | ⟨-, rfl⟩ | ⟨-, rfl⟩ | ⟨-, rfl⟩ |
    ⟨idx, -, -, rfl⟩ | ⟨-, rfl⟩ | ⟨-, rfl⟩ | ⟨v, -, -, rfl⟩ | ⟨v, -, -, rfl⟩ <;> simp

/-- Settles O31, by the four kinds of edge. -/
theorem busyAndDoneExclusive : Obligations.BusyAndDoneExclusive := by
  intro s t h hs
  rcases step_cases h with ⟨-, rfl⟩ | ⟨-, -, i, -, hi⟩ | ⟨-, -, -, rfl⟩ | ⟨-, -, -, rfl⟩
  · simp
  · rcases exec_flags hi with ⟨hb, hd⟩ | hb | hd
    · rwa [hb, hd]
    · simp [hb]
    · simp [hd]
  · simp
  · exact hs

/-- Settles O34: after reset the block is idle and has no result, so only the stores have something to meet. -/
theorem invariantAtReset : Obligations.InvariantAtReset :=
  ⟨⟨rfl, rfl⟩, by simp [State.reset], by simp [State.reset], by simp [State.reset]⟩

end Sys2Proof.Machine

/-! PROOF. The statements about the stores and the invariant: no edge writes a store, and every edge keeps `Inv`, by one
lemma for the micro-operations that go on and one for `RECON`, which ends the transaction. -/

namespace Sys2Proof.Machine

/-! ## The stores -/

/-- No edge of any kind replaces the contents of `UROM` or the word `KINV` (R48, R51). -/
theorem step_keeps_stores {s t : State} (h : step s = .next t) : t.urom = s.urom ∧ t.kinvRaw = s.kinvRaw := by
  rcases step_cases h with ⟨-, rfl⟩ | ⟨-, -, i, -, hi⟩ | ⟨-, -, -, rfl⟩ | ⟨-, -, -, rfl⟩
  · exact ⟨rfl, rfl⟩
  · obtain ⟨hu, hk, -, -⟩ := exec_keeps_rest hi
    exact ⟨hu, hk⟩
  · exact ⟨rfl, rfl⟩
  · exact ⟨rfl, rfl⟩

/-- Settles O32: equal contents read equally and have the same form. -/
theorem storeIsNeverWritten : Obligations.StoreIsNeverWritten := by
  intro s t h
  obtain ⟨hu, hk⟩ := step_keeps_stores h
  exact ⟨⟨fun a => by rw [hu], hk⟩, fun hwf => by rwa [hu]⟩

theorem ThisHardware.of_step {s t : State} (hw : ThisHardware s) (h : step s = .next t) : ThisHardware t := by
  obtain ⟨hu, hk⟩ := step_keeps_stores h
  exact ⟨hu.trans hw.1, hk.trans hw.2⟩

/-! ## The entry a transaction is at -/

/-- What stands at each entry of the micro-program of (N, R) (R67). -/
theorem microProgram_getElem?_cases {N : Nat} {rep : List Nat} {n : Nat} {i : Instr}
    (h : (microProgram N rep)[n]? = some i) :
    (n = 0 ∧ i = .guard) ∨ (n = 1 ∧ i = .widen) ∨ (n = 2 ∧ i = .mulq) ∨ (n = 3 ∧ i = .floork) ∨
    (n = 4 ∧ i = .resid) ∨ (n = 5 ∧ i = .init) ∨
    (∃ m j, n = m + 6 ∧ (schedule N rep)[m]? = some j ∧ i = rotInstr j) ∨
    (n = (schedule N rep).length + 6 ∧ i = .sum) ∨ (n = (schedule N rep).length + 7 ∧ i = .recon) := by
  match n with
  | 0 | 1 | 2 | 3 | 4 | 5 => simp_all [microProgram]
  | m + 6 =>
    have hm : ((schedule N rep).map rotInstr ++ [.sum, .recon])[m]? = some i := h
    rcases Nat.lt_or_ge m (schedule N rep).length with hlt | hge
    · rw [List.getElem?_append_left (by simpa using hlt), List.getElem?_map, Option.map_eq_some_iff] at hm
      obtain ⟨j, hj, rfl⟩ := hm
      simp [hj]
    · obtain ⟨d, rfl⟩ := Nat.exists_eq_add_of_le hge
      rw [List.getElem?_append_right (by simp)] at hm
      match d with
      | 0 => simp_all
      | 1 => simp_all
      | d + 2 => simp at hm

/-- The word fetched in a transaction of this hardware decodes to the micro-operation at entry `upc` (R42, R66). -/
theorem ThisHardware.entry_of_fetch {s : State} {i : Instr} (hw : ThisHardware s) (hn : s.upc.toNat ≤ 24)
    (h : decodeMicro s.fetch = .ok i) : defaultParams.program[s.upc.toNat]? = some i := by
  have hlt : s.upc.toNat < defaultParams.program.length := by
    have hl : defaultParams.program.length = 25 := rfl
    omega
  have hj := List.getElem?_eq_getElem hlt
  have hd := decodeMicro_uromConstant hj
  rw [BitVec.ofNat_toNat, BitVec.setWidth_eq, ← hw.1] at hd
  rw [hj]
  exact congrArg some (Except.ok.inj (hd.symm.trans h))

/-! ## What the datapath operations make of the accepted word -/

/-- Truncation toward zero, corrected when it exceeds `q`, is the floor (R87, R88). -/
theorem truncateAndCorrect_eq_floor (q : RrWord) : truncateAndCorrect q = wrap 8 (q.toInt / 65536) := by
  have hkt : trunc0 q.toInt 65536 = q.toInt / 65536 + if 0 ≤ q.toInt ∨ 65536 ∣ q.toInt then 0 else 1 :=
    Int.tdiv_eq_ediv
  simp only [truncateAndCorrect, truncationExceeds, decide_eq_true_eq]
  by_cases h : 0 ≤ q.toInt ∨ 65536 ∣ q.toInt
  · rw [if_pos h] at hkt
    rw [hkt, if_neg (by omega), Int.add_zero]
  · rw [if_neg h] at hkt
    rw [hkt, if_pos (by omega), Int.add_sub_cancel]

/-- The Range Reducer is its micro-operations one after the other (R95). -/
theorem reduce_eq (xg : InWord) : reduce xg =
    (truncateAndCorrect (quotient (widenInToRr xg)),
      residualOf (widenInToRr xg) (truncateAndCorrect (quotient (widenInToRr xg)))) := by
  rw [truncateAndCorrect_eq_floor]
  rfl

theorem rotations_take_succ {l : List Nat} {m j : Nat} (h : l[m]? = some j) (c : CordicRegs) :
    rotations (l.take (m + 1)) c = rotate j (rotations (l.take m) c) := by
  simp [rotations, List.take_add_one, h]

/-- The index operand of `ROT` holds every index of a table of 31 entries. -/
theorem rotOperand_ofNat {j : Nat} (h : j < 32) : rotOperand (BitVec.ofNat 5 j) = j := by
  rw [rotOperand, BitVec.toNat_ofNat]
  exact Nat.mod_eq_of_lt h

theorem le_of_mem_schedule {n j : Nat} {rep : List Nat} (h : j ∈ schedule n rep) : j ≤ n := by
  obtain ⟨i, hi, hj⟩ := List.mem_flatMap.1 h
  obtain ⟨a, ha, rfl⟩ := List.mem_map.1 hi
  have hlt := List.mem_range.1 ha
  obtain rfl : j = a + 1 := by
    split at hj <;> simpa using hj
  omega

/-- `SUM` on the registers all rotations have left computes `cordic` (R120). -/
theorem cordic_of_cordicRegs {s : State} {r : RrWord}
    (h : s.cordicRegs = rotations (schedule Config.stageCount Config.repeatSet) (initialRegs kinv r)) :
    cordic r = (cordicSum s.x s.y, narrowCordicToOut (clampSum (cordicSum s.x s.y))) := by
  rw [← s.cordicRegs_x, ← s.cordicRegs_y, h]
  rfl

/-! ## A transaction in progress, one micro-operation further -/

theorem State.toNat_upc_succ {s : State} (h : s.upc.toNat ≤ 24) : (s.upc + 1).toNat = s.upc.toNat + 1 := by
  bv_omega

/-- A rotation of the schedule: entry `m + 6` performs the rotation at place `m` (R66, R109). -/
theorem TransactionInProgress.of_exec_rot {s t : State} {m j : Nat} (hs : TransactionInProgress s)
    (hn : s.upc.toNat = m + 6) (hj : (schedule Config.stageCount Config.repeatSet)[m]? = some j)
    (h : exec (rotInstr j) s = .next t) : TransactionInProgress t := by
  obtain ⟨hle, hguard, hwiden, hmulq, hfloork, hresid, hrot, -⟩ := hs
  have hm : m < 17 := (List.getElem?_eq_some_iff.1 hj).1
  have hn' : (s.upc + 1).toNat = m + 1 + 6 := by rw [State.toNat_upc_succ hle, hn]
  have hidx : rotOperand (BitVec.ofNat 5 j) = j :=
    rotOperand_ofNat ((le_of_mem_schedule (List.mem_of_getElem? hj)).trans_lt (by decide))
  have hregs : s.cordicRegs = _ := hrot (by omega)
  rw [hn, Nat.add_sub_cancel] at hregs
  obtain rfl := exec_rot_next h
  refine ⟨hn'.trans_le (by omega), fun _ => hguard (by omega), fun _ => hwiden (by omega), fun _ => hmulq (by omega),
    fun _ => hfloork (by omega), fun _ => hresid (by omega), fun _ => ?_, fun h24 => absurd (hn' ▸ h24) (by omega)⟩
  rw [State.advance_upc, State.setCordicRegs_upc, hn', Nat.add_sub_cancel, State.cordicRegs_advance,
    State.cordicRegs_setCordicRegs, hidx, hregs]
  exact (rotations_take_succ hj _).symm

/-- `SUM` at entry 23, after all the rotations (R66, R114). -/
theorem TransactionInProgress.of_exec_sum {s t : State} (hs : TransactionInProgress s) (hn : s.upc.toNat = 23)
    (h : exec .sum s = .next t) : TransactionInProgress t := by
  obtain ⟨hle, hguard, hwiden, hmulq, hfloork, hresid, hrot, -⟩ := hs
  have hn' : (s.upc + 1).toNat = 24 := by rw [State.toNat_upc_succ hle, hn]
  have hregs : s.cordicRegs = _ := hrot (by omega)
  rw [hn, List.take_of_length_le (by decide)] at hregs
  cases h
  refine ⟨hn'.trans_le (by omega), fun _ => hguard (by omega), fun _ => hwiden (by omega), fun _ => hmulq (by omega),
    fun _ => hfloork (by omega), fun _ => hresid (by omega), fun _ => ?_, fun _ => ?_⟩
  · rw [State.advance_upc, State.setSum_upc, hn', List.take_of_length_le (by decide)]
    exact hregs
  · exact Prod.ext_iff.1 (cordic_of_cordicRegs hregs).symm

/-- Each micro-operation that goes on writes what the next entry's clause of `TransactionInProgress` asks for. -/
theorem TransactionInProgress.of_exec {s t : State} {i : Instr} (hs : TransactionInProgress s) (hw : ThisHardware s)
    (hi : defaultParams.program[s.upc.toNat]? = some i) (hne : i ≠ .recon) (h : exec i s = .next t) :
    TransactionInProgress t := by
  rcases microProgram_getElem?_cases hi with ⟨hn, rfl⟩ | ⟨hn, rfl⟩ | ⟨hn, rfl⟩ | ⟨hn, rfl⟩ | ⟨hn, rfl⟩ | ⟨hn, rfl⟩ |
    ⟨m, j, hn, hj, rfl⟩ | ⟨hn, rfl⟩ | ⟨-, rfl⟩
  · rw [exec_guard] at h
    cases h
    simp [TransactionInProgress, hn]
  · cases h
    simp_all [TransactionInProgress]
  · cases h
    simp_all [TransactionInProgress]
  · cases h
    simp_all [TransactionInProgress, reduce_eq]
  · cases h
    simp_all [TransactionInProgress, reduce_eq]
  · cases h
    simp_all [TransactionInProgress, hw.2, rotations, kinv]
  · exact hs.of_exec_rot hn hj h
  · exact hs.of_exec_sum hn h
  · exact absurd rfl hne

/-- `RECON` after the sum delivers `evaluate` of the accepted word (R126). -/
theorem TransactionInProgress.reconstruct_eq_evaluate {s : State} (hs : TransactionInProgress s)
    (hn : s.upc.toNat = 24) : reconstruct s.eo s.k = evaluate s.xin := by
  obtain ⟨-, -, -, -, hk, -, -, hsum⟩ := hs
  rw [hk (by omega), (hsum (by omega)).2]
  simp [evaluate, evaluateUnder, cordic]

/-! ## The invariant -/

/-- The micro-program of this hardware ends at entry 24 (R66). -/
theorem upc_of_entry_recon {s : State} (h : defaultParams.program[s.upc.toNat]? = some .recon) :
    s.upc.toNat = 24 := by
  have hn : s.upc.toNat = (schedule defaultParams.stageCount defaultParams.repeatSet).length + 7 := by
    simpa [rotInstr] using microProgram_getElem?_cases h
  exact hn

/-- Settles O33. While busy the edge runs the micro-operation at entry `upc`: one that goes on keeps the transaction in
progress, `RECON` delivers the result. The other edges start a transaction, abandon it or change no register. -/
theorem invariantIsKept : Obligations.InvariantIsKept := by
  rintro s t ⟨hw, hx, hb, hd⟩ h
  have hxt := busyAndDoneExclusive s t h hx
  refine ⟨hw.of_step h, hxt, ?_⟩
  rcases step_cases h with ⟨-, rfl⟩ | ⟨-, hbusy, i, hf, hi⟩ | ⟨-, -, -, rfl⟩ | ⟨-, -, -, rfl⟩
  · simp
  · have hs : TransactionInProgress s.tick := hb hbusy
    have hentry : defaultParams.program[s.tick.upc.toNat]? = some i := hw.entry_of_fetch hs.1 hf
    by_cases hne : i = .recon
    · subst hne
      cases hi
      simpa using hs.reconstruct_eq_evaluate (upc_of_entry_recon hentry)
    · have hm : isMicroOperation i = true :=
        (by decide : ∀ j ∈ defaultParams.program, isMicroOperation j = true) i (List.mem_of_getElem? hentry)
      have htb : t.busy = true := (exec_continues hi hm hne).1.trans hbusy
      exact ⟨fun _ => hs.of_exec hw hentry hne hi, fun htd => absurd ⟨htb, htd⟩ hxt⟩
  · simp [TransactionInProgress]
  · exact ⟨hb, hd⟩

end Sys2Proof.Machine

/-! PROOF. The statements of the encoding. The decoder is the inverse of the encoder, and from that it follows the
opcode map and rejects exactly the reserved words; with the invariant none of them is fetched. Then the shape of the
micro-programs and the transaction of any of them: the micro-operations still to run are a list that each edge shortens,
and what the edges make of the registers is one function of the state, evaluated along that list. -/

namespace Sys2Proof

/-! ## Decoding and encoding -/

theorem decode_encode {i : Instr} (h : i.wf = true) : decode (encode i) = .ok i := by
  cases i with
  | rot idx => revert idx; decide
  | _ => rfl

theorem encode_of_functionCode {fn : BitVec 7} {i : Instr} (h : functionCode fn = some i) :
    i.wf = true ∧ encode i = .micro (fn.setWidth 8) := by
  unfold functionCode at h
  split at h
  case h_9 => cases h
  all_goals
    rename_i hn
    cases h
    rw [← BitVec.ofNat_toNat, hn]
    exact ⟨rfl, rfl⟩

theorem rotationCode_eq_some {w : MicroWord} {i : Instr} (h : rotationCode w = some i) :
    w.extractLsb' 5 2 = 0 ∧ legalIndex (w.extractLsb' 0 5) = true ∧ i = .rot (w.extractLsb' 0 5) := by
  unfold rotationCode at h
  split at h
  · rename_i hw
    exact ⟨hw.1, hw.2, (Option.some.inj h).symm⟩
  · cases h

/-- A word of format F is its function code. -/
theorem setWidth_functionBits {w : MicroWord} (h : w.getLsbD 7 = false) : (w.extractLsb' 0 7).setWidth 8 = w := by
  revert w; decide

/-- A word of format T with bits 6:5 clear is 0x80 with its index field. -/
theorem or_indexBits {w : MicroWord} (h7 : w.getLsbD 7 = true) (h65 : w.extractLsb' 5 2 = 0) :
    0x80 ||| (w.extractLsb' 0 5).setWidth 8 = w := by
  revert w; decide

theorem decodeMicro_eq_ok {w : MicroWord} {i : Instr} (h : decodeMicro w = .ok i) :
    (w.getLsbD 7 = true ∧ rotationCode w = some i) ∨
    (w.getLsbD 7 = false ∧ functionCode (w.extractLsb' 0 7) = some i) := by
  unfold decodeMicro at h
  split at h
  · rename_i hw
    cases h
    split at hw <;> simp_all
  · cases h

theorem decodeMicro_eq_error {w : MicroWord} {x : DecodeError} (h : decodeMicro w = .error x) :
    x = .reservedMicroop w := by
  unfold decodeMicro at h
  split at h
  · cases h
  · exact (Except.error.inj h).symm

/-- A word that decodes is the code word of its instruction, in each of the two formats. -/
theorem encode_of_decodeMicro {w : MicroWord} {i : Instr} (h : decodeMicro w = .ok i) :
    i.wf = true ∧ encode i = .micro w := by
  rcases decodeMicro_eq_ok h with ⟨h7, hr⟩ | ⟨h7, hf⟩
  · obtain ⟨h65, hidx, rfl⟩ := rotationCode_eq_some hr
    exact ⟨hidx, congrArg CodeWord.micro (or_indexBits h7 h65)⟩
  · rw [← setWidth_functionBits h7]
    exact encode_of_functionCode hf

/-- Settles O2: `decode_encode` and, for a micro-operation word, `encode_of_decodeMicro`; a port word is its operand. -/
theorem decodeInvertsEncode : Obligations.DecodeInvertsEncode := by
  refine ⟨fun i h => decode_encode h, fun c i h => ?_⟩
  cases c with
  | micro w => exact encode_of_decodeMicro h
  | port w =>
    cases h
    exact ⟨rfl, rfl⟩

/-! ## The opcode map -/

/-- The family of Laws/PerInstr.lean, for every instruction: its code word fits the row of its mnemonic. -/
theorem tableRow : ∀ i : Instr, Laws.TableRow.Statement i
  | .guard => Laws.TableRow.guard
  | .widen => Laws.TableRow.widen
  | .mulq => Laws.TableRow.mulq
  | .floork => Laws.TableRow.floork
  | .resid => Laws.TableRow.resid
  | .init => Laws.TableRow.init
  | .rot idx => Laws.TableRow.rot idx
  | .sum => Laws.TableRow.sum
  | .recon => Laws.TableRow.recon
  | .eval v => Laws.TableRow.eval v

theorem rowFits_of_encode {i : Instr} {w : MicroWord} (hi : i.wf = true) (h : encode i = .micro w) :
    ∃ row ∈ opcodeTable, row.mnemonic = mnemonic i ∧ rowFits row w = true := by
  have hrow := tableRow i hi
  rwa [h] at hrow

theorem match_of_rowFits {row : OpcodeRow} {w : MicroWord} (h : rowFits row w = true) : w &&& row.mask = row.code := by
  simp_all [rowFits]

/-- Two different rows differ in a bit that both of their masks keep. -/
theorem row_eq_of_codes_agree : ∀ row ∈ opcodeTable, ∀ row' ∈ opcodeTable,
    row.code &&& row'.mask = row'.code &&& row.mask → row' = row := by
  decide

/-- No word matches two rows (R63). -/
theorem row_eq_of_match {row row' : OpcodeRow} {w : MicroWord} (hr : row ∈ opcodeTable) (hr' : row' ∈ opcodeTable)
    (h : w &&& row.mask = row.code) (h' : w &&& row'.mask = row'.code) : row' = row := by
  refine row_eq_of_codes_agree row hr row' hr' ?_
  rw [← h, ← h', BitVec.and_assoc, BitVec.and_assoc, BitVec.and_comm row.mask]

/-- Bits 7:5 of a word that matches the row of format T are 100. -/
theorem formatT_of_match {w : MicroWord} (h : w &&& 0xE0 = 0x80) :
    w.getLsbD 7 = true ∧ w.extractLsb' 5 2 = 0 := by
  revert w; decide

/-- A row of format F matches its own word alone, which decodes; the other row is that of `ROT`. -/
theorem opcodeTable_rows : ∀ row ∈ opcodeTable,
    (row.mask = BitVec.allOnes 8 ∧ (decodeMicro row.code).isOk = true) ∨ row = ⟨"ROT", 0x80, 0xE0⟩ := by
  decide

/-- A word that fits a row decodes. -/
theorem decodeMicro_isOk_of_rowFits {row : OpcodeRow} (hr : row ∈ opcodeTable) {w : MicroWord}
    (h : rowFits row w = true) : (decodeMicro w).isOk = true := by
  have hm := match_of_rowFits h
  rcases opcodeTable_rows row hr with ⟨hmask, hok⟩ | rfl
  · rw [hmask, BitVec.and_allOnes] at hm
    rwa [hm]
  · obtain ⟨h7, h65⟩ := formatT_of_match hm
    obtain ⟨-, hidx⟩ : w &&& 0xE0 = 0x80 ∧ legalIndex (w.extractLsb' 0 5) = true := by simpa [rowFits] using h
    have hd := decode_encode (i := .rot (w.extractLsb' 0 5)) hidx
    rw [encode, or_indexBits h7 h65] at hd
    exact congrArg Except.isOk hd

/-- Settles O3. A word that decodes is a code word, which fits its instruction's row, and the rows are disjoint; a word
that fits a row decodes. -/
theorem decoderFollowsOpcodeMap : Obligations.DecoderFollowsOpcodeMap := by
  refine fun w => ⟨fun i hd => ?_, fun x hd => ⟨decodeMicro_eq_error hd, fun row hr => ?_⟩⟩
  · obtain ⟨hi, he⟩ := encode_of_decodeMicro hd
    obtain ⟨row, hr, hmn, hfit⟩ := rowFits_of_encode hi he
    exact ⟨row, hr, hfit, hmn, fun row' hr' h' => row_eq_of_match hr hr' (match_of_rowFits hfit) h'⟩
  · by_contra hfit
    have hok := decodeMicro_isOk_of_rowFits hr (Bool.eq_true_of_not_eq_false hfit)
    rw [show decodeMicro w = .error x from hd] at hok
    cases hok

/-! ## Reserved words -/

/-- R64: the 256 words, reserved and not. -/
theorem decodeMicro_isOk_iff : ∀ w : MicroWord, (decodeMicro w).isOk = true ↔
    ¬ (w.toNat = 0 ∨ (0x09 ≤ w.toNat ∧ w.toNat ≤ 0x80) ∨ 0x9F ≤ w.toNat) := by
  decide

end Sys2Proof

namespace Sys2Proof.Machine

/-- A step whose fetched word decodes runs its instruction (R132). -/
theorem step_eq_exec {s : State} {i : Instr} (hr : s.pins.rst = false) (hb : s.busy = true)
    (hd : decodeMicro s.fetch = .ok i) : step s = exec i s.tick := by
  simp [step, State.event_busy hr hb, eventOf, decode, hd]

/-- A step whose fetched word is rejected is refused under the name of that word (R64, R132). -/
theorem step_eq_refused {s : State} {x : DecodeError} (hr : s.pins.rst = false) (hb : s.busy = true)
    (hd : decodeMicro s.fetch = .error x) : step s = .refused (.reservedMicroop s.fetch) := by
  obtain rfl := decodeMicro_eq_error hd
  simp [step, State.event_busy hr hb, eventOf, decode, hd]

/-- Settles O4: a rejected word is refused, and a word that decodes is an instruction's, which answers a next state. -/
theorem reservedWordsAreRefused : Obligations.ReservedWordsAreRefused := by
  intro s hr hb
  rcases hd : decodeMicro s.fetch with x | i
  · have hreserved := mt (decodeMicro_isOk_iff s.fetch).2 (by rw [hd]; exact Bool.false_ne_true)
    exact iff_of_true (not_not.1 hreserved) (step_eq_refused hr hb hd)
  · have hlegal := (decodeMicro_isOk_iff s.fetch).1 (by rw [hd]; rfl)
    obtain ⟨t, ht⟩ := exec_answers_of_wf (encode_of_decodeMicro hd).1 s.tick
    exact iff_of_false hlegal (by simp [step_eq_exec hr hb hd, ht])

/-! ## Sample words, `EVAL` -/

/-- Settles O1: the words are the code words of their instructions, and four reserved words. -/
theorem sampleWordsDecode : Obligations.SampleWordsDecode :=
  ⟨decode_encode (i := .guard) rfl, decode_encode (i := .widen) rfl, decode_encode (i := .mulq) rfl,
    decode_encode (i := .floork) rfl, decode_encode (i := .resid) rfl, decode_encode (i := .init) rfl,
    decode_encode (i := .sum) rfl, decode_encode (i := .recon) rfl, decode_encode (i := .rot 1) rfl,
    decode_encode (i := .rot 13) rfl, decode_encode (i := .rot 30) rfl, decode_encode (i := .eval 0xF000) rfl,
    rfl, rfl, rfl, rfl⟩

/-- Settles O21: in an idle block `EVAL` is the accept, and so is the edge that requests. -/
theorem evalAcceptsOperand : Obligations.EvalAcceptsOperand := by
  refine ⟨fun s v hb => ⟨rfl, s.accept v, ?_, rfl, fun _ => rfl, rfl⟩, fun s hr hb hs => step_accept hr hb hs⟩
  exact if_neg (by simp [hb])

/-! ## No refusal with the invariant -/

/-- While busy the fetched entry is one of the constant micro-program; the other edges always have a successor. -/
theorem Inv.step_answers {s : State} (h : Inv s) : ∃ t, step s = .next t := by
  obtain ⟨hw, -, hbusy, -⟩ := h
  rcases hr : s.pins.rst with _ | _
  · rcases hb : s.busy with _ | _
    · rcases hs : s.pins.start with _ | _
      · exact ⟨s.tick, by simp [step, State.event_idle hr hb hs]⟩
      · exact ⟨_, step_accept hr hb hs⟩
    · have hn : s.upc.toNat ≤ 24 := (hbusy hb).1
      have hi : s.upc.toNat < defaultParams.program.length := Nat.lt_of_le_of_lt hn (by decide)
      have hd := decodeMicro_uromConstant (List.getElem?_eq_getElem hi)
      rw [BitVec.ofNat_toNat, BitVec.setWidth_eq, ← hw.1] at hd
      rw [step_eq_exec hr hb hd]
      exact exec_answers_of_wf (encode_of_decodeMicro hd).1 _
  · exact ⟨_, by rw [step, State.event_reset hr]⟩

/-- Settles O35: each edge answers a next state, which has the invariant again. -/
theorem invariantRulesOutRefusal : Obligations.InvariantRulesOutRefusal := by
  intro n
  induction n with
  | zero => exact fun s _ => ⟨s, rfl⟩
  | succ n ih =>
    intro s h
    obtain ⟨t, ht⟩ := h.step_answers
    obtain ⟨u, hu⟩ := ih t (invariantIsKept s t h ht)
    exact ⟨u, (core_run_succ ht).trans hu⟩

/-! ## The shape of a micro-program -/

/-- Each index once, and those of `R` once more (R104). -/
theorem length_schedule (n : Nat) (rep : List Nat) :
    (schedule n rep).length = n + ((List.range n).filter (fun j => j + 1 ∈ rep)).length := by
  induction n with
  | zero => rfl
  | succ n ih =>
    have hs : schedule (n + 1) rep = schedule n rep ++ if n + 1 ∈ rep then [n + 1, n + 1] else [n + 1] := by
      simp [schedule, List.range_succ]
    rw [hs, List.length_append, ih, List.range_succ, List.filter_append, List.length_append]
    by_cases h : n + 1 ∈ rep <;> simp [h] <;> omega

theorem length_microProgram (n : Nat) (rep : List Nat) :
    (microProgram n rep).length = 8 + (schedule n rep).length := by
  simp +arith [microProgram]

theorem pseudoEvalprog_eq_microProgram (n : Nat) (rep : List Nat) : pseudoEvalprog n rep = microProgram n rep := by
  simp [pseudoEvalprog, pseudoReduce, pseudoCordic, microProgram]

/-- Settles O46: the length is that of the schedule and eight more, and the store built for the default program lists no
entry, so the constant contents are its bytes and then 0x00. -/
theorem microProgramShape : Obligations.MicroProgramShape := by
  refine ⟨fun n rep => ⟨?_, pseudoEvalprog_eq_microProgram n rep⟩, by decide, by decide, fun a => ?_⟩
  · rw [length_microProgram, length_schedule, Nat.add_assoc]
  · rw [← uromWith_defaultParams]
    exact uromWith_read _ a

/-! ## The bytes of a micro-program -/

/-- Exactly the micro-operations have a micro-operation word (R60, R61). -/
theorem isMicroOperation_iff {i : Instr} : isMicroOperation i = true ↔ ∃ w, encode i = .micro w := by
  cases i with
  | eval v => exact iff_of_false nofun nofun
  | _ => exact iff_of_true rfl ⟨_, rfl⟩

/-- `encodeBytes` loses no micro-operation. -/
theorem map_micro_encodeBytes {program : List Instr} (h : ∀ i ∈ program, isMicroOperation i = true) :
    (encodeBytes program).map CodeWord.micro = program.map encode := by
  induction program with
  | nil => rfl
  | cons i is ih =>
    obtain ⟨hi, his⟩ := List.forall_mem_cons.1 h
    obtain ⟨w, hw⟩ := isMicroOperation_iff.1 hi
    have hcons : encodeBytes (i :: is) = w :: encodeBytes is := by simp [encodeBytes, hw]
    rw [hcons, List.map_cons, List.map_cons, ih his, hw]

theorem one_le_of_mem_schedule {n j : Nat} {rep : List Nat} (h : j ∈ schedule n rep) : 1 ≤ j := by
  obtain ⟨i, hi, hj⟩ := List.mem_flatMap.1 h
  obtain ⟨a, -, rfl⟩ := List.mem_map.1 hi
  obtain rfl : j = a + 1 := by
    split at hj <;> simpa using hj
  omega

/-- The rotations of a stage count up to 30 are legal (R9, R61). -/
theorem legalIndex_of_mem_schedule {n j : Nat} {rep : List Nat} (hn : n ≤ 30) (h : j ∈ schedule n rep) :
    legalIndex (BitVec.ofNat 5 j) = true := by
  have hlo := one_le_of_mem_schedule h
  have hhi := le_of_mem_schedule h
  have hj : (BitVec.ofNat 5 j).toNat = j := rotOperand_ofNat (by omega)
  simpa [legalIndex, hj] using And.intro hlo (hhi.trans hn)

/-- Every micro-program is legal micro-operations that go on, then `RECON` (R67). -/
theorem microProgram_eq_append_recon {n : Nat} (hn : n ≤ 30) (rep : List Nat) :
    ∃ body : List Instr, microProgram n rep = body ++ [Instr.recon] ∧
      ∀ i ∈ body, i.wf = true ∧ isMicroOperation i = true ∧ i ≠ .recon := by
  refine ⟨([.guard, .widen, .mulq, .floork, .resid, .init] : List Instr) ++ (schedule n rep).map rotInstr ++
    [Instr.sum], by simp [microProgram], ?_⟩
  simp only [List.forall_mem_append, List.forall_mem_map]
  refine ⟨⟨by decide, fun j hj => ⟨?_, rfl, nofun⟩⟩, by decide⟩
  exact legalIndex_of_mem_schedule hn hj

/-! ## The micro-operations still to run -/

theorem upc_succ_add (a : Upc) (j : Nat) : a + 1 + BitVec.ofNat 6 j = a + BitVec.ofNat 6 (j + 1) := by
  rw [BitVec.add_assoc, BitVec.add_comm 1, BitVec.ofNat_add]
  rfl

/-- A transaction whose micro-operations still to run are `rest`: `UROM` holds them from entry `upc` on, and the edges
they take are free of reset. -/
structure Pending (rest : List Instr) (s : State) : Prop where
  busy : s.busy = true
  holds : ∀ j i, rest[j]? = some i → encode i = .micro (s.urom.read (s.upc + BitVec.ofNat 6 j))
  noReset : NoReset s rest.length

/-- The state after an edge that runs `i`; `s.tick` where `i` has no next state. -/
def State.afterEdge (s : State) (i : Instr) : State :=
  match exec i s.tick with
  | .next t => t
  | _ => s.tick

theorem exec_eq_afterEdge {i : Instr} (h : i.wf = true) (s : State) : exec i s.tick = .next (s.afterEdge i) := by
  obtain ⟨t, ht⟩ := exec_answers_of_wf h s.tick
  simp [State.afterEdge, ht]

/-- The state after the edges that run the list. -/
def State.afterEdges (s : State) (is : List Instr) : State := is.foldl State.afterEdge s

section AfterEdges
variable (s : State)

@[simp] theorem State.afterEdges_nil : s.afterEdges [] = s := rfl

@[simp] theorem State.afterEdges_cons (i : Instr) (is : List Instr) :
    s.afterEdges (i :: is) = (s.afterEdge i).afterEdges is := rfl

@[simp] theorem State.afterEdges_append (is js : List Instr) :
    s.afterEdges (is ++ js) = (s.afterEdges is).afterEdges js := List.foldl_append

end AfterEdges

section Pending
variable {i : Instr} {rest : List Instr} {s : State}

theorem Pending.encode_head (hs : Pending (i :: rest) s) : encode i = .micro s.fetch := by
  simpa [State.fetch] using hs.holds 0 i rfl

theorem Pending.step (hs : Pending (i :: rest) s) (hi : i.wf = true) : step s = .next (s.afterEdge i) := by
  have hd : decodeMicro s.fetch = .ok i := by
    have h := decode_encode hi
    rwa [hs.encode_head] at h
  rw [step_eq_exec (pins_rst_of_noReset hs.noReset) hs.busy hd, exec_eq_afterEdge hi]

/-- An edge that runs the first of them, other than `RECON`, leaves the rest. -/
theorem Pending.next (hs : Pending (i :: rest) s) (hi : i.wf = true) (hne : i ≠ .recon) :
    Pending rest (s.afterEdge i) ∧ (s.afterEdge i).upc = s.upc + 1 := by
  have hm : isMicroOperation i = true := isMicroOperation_iff.2 ⟨_, hs.encode_head⟩
  have h := exec_eq_afterEdge hi s
  obtain ⟨hu, -, -, -⟩ := exec_keeps_rest h
  obtain ⟨hb, hc⟩ := exec_continues h hm hne
  refine ⟨⟨hb.trans hs.busy, fun j i' hj => ?_, fun m hm => ?_⟩, hc⟩
  · rw [hu, hc, State.tick_urom, State.tick_upc, upc_succ_add]
    exact hs.holds (j + 1) i' hj
  · rw [exec_pinsAt h]
    exact noReset_tick hs.noReset m hm

/-- The edges that run `body`. -/
theorem Pending.run {body : List Instr} (hbody : ∀ i ∈ body, i.wf = true ∧ isMicroOperation i = true ∧ i ≠ .recon)
    (hs : Pending (body ++ rest) s) :
    Host.Core.run core body.length s = .next (s.afterEdges body) ∧
      Pending rest (s.afterEdges body) ∧
      (s.afterEdges body).upc = s.upc + BitVec.ofNat 6 body.length := by
  induction body generalizing s with
  | nil => exact ⟨rfl, hs, by simp⟩
  | cons i body ih =>
    obtain ⟨⟨hi, -, hne⟩, hbody'⟩ := List.forall_mem_cons.1 hbody
    obtain ⟨hnext, hupc⟩ := Pending.next hs hi hne
    obtain ⟨hrun, hrest, hupc'⟩ := ih hbody' hnext
    refine ⟨(core_run_succ (Pending.step hs hi)).trans hrun, hrest, hupc'.trans ?_⟩
    rw [hupc, upc_succ_add]
    rfl

/-- The edges that run `body` and then `RECON`, which leaves `upc` (R133). -/
theorem Pending.run_to_end {body : List Instr}
    (hbody : ∀ i ∈ body, i.wf = true ∧ isMicroOperation i = true ∧ i ≠ .recon)
    (hs : Pending (body ++ [Instr.recon]) s) :
    Host.Core.run core (body.length + 1) s = .next (s.afterEdges (body ++ [Instr.recon])) ∧
      (s.afterEdges (body ++ [Instr.recon])).upc = s.upc + BitVec.ofNat 6 body.length := by
  obtain ⟨hrun, hlast, hupc⟩ := Pending.run hbody hs
  rw [run_add core body.length 1 hrun, State.afterEdges_append]
  exact ⟨core_run_succ (Pending.step hlast rfl), hupc⟩

/-- An accept, when `UROM` holds a micro-program, leaves all of it to run. -/
theorem Pending.accept {program : List Instr} (hm : ∀ i ∈ program, isMicroOperation i = true)
    (hu : UromHolds s program) (hr : NoReset s (program.length + 1)) (v : InWord) :
    Pending program (s.tick.accept v) where
  busy := rfl
  holds j i hi := by
    have hj : ((encodeBytes program).map CodeWord.micro)[j]? = some (encode i) := by
      rw [map_micro_encodeBytes hm, List.getElem?_map, hi, Option.map_some]
    obtain ⟨w, hw, he⟩ := Option.map_eq_some_iff.1 (List.getElem?_map.symm.trans hj)
    have hread := hu j w hw
    simp [← he, hread]
  noReset := noReset_tick hr

end Pending

/-! ## What the edges make of the registers -/

section AfterEdge
variable (s : State)

@[simp] theorem State.afterEdge_guard :
    s.afterEdge .guard = (s.tick.setGuard (guardedOperand s.xin) false).advance := by
  rw [State.afterEdge, exec_guard, State.tick_xin]

@[simp] theorem State.afterEdge_widen : s.afterEdge .widen = (s.tick.setXw (widenInToRr s.xg)).advance := rfl

@[simp] theorem State.afterEdge_mulq : s.afterEdge .mulq = (s.tick.setQ (quotient s.xw)).advance := rfl

@[simp] theorem State.afterEdge_floork : s.afterEdge .floork = (s.tick.setK (truncateAndCorrect s.q)).advance := rfl

@[simp] theorem State.afterEdge_resid : s.afterEdge .resid = (s.tick.setR (residualOf s.xw s.k)).advance := rfl

@[simp] theorem State.afterEdge_init :
    s.afterEdge .init = (s.tick.setCordicRegs (initialRegs s.kinvRaw s.r)).advance := rfl

@[simp] theorem State.afterEdge_sum : s.afterEdge .sum =
    (s.tick.setSum (cordicSum s.x s.y) (narrowCordicToOut (clampSum (cordicSum s.x s.y)))).advance := rfl

@[simp] theorem State.afterEdge_recon : s.afterEdge .recon = s.tick.finish (reconstruct s.eo s.k) := rfl

theorem State.afterEdge_rotInstr {j : Nat} (h : legalIndex (BitVec.ofNat 5 j) = true) (hj : j < 32) :
    s.afterEdge (rotInstr j) = (s.tick.setCordicRegs (rotate j s.cordicRegs)).advance := by
  have hr := exec_rot_next (exec_eq_afterEdge (i := rotInstr j) h s)
  rwa [rotOperand_ofNat hj, State.cordicRegs_tick] at hr

/-- From `GUARD` to `INIT`: the Range Reducer's `k`, and its residual in the registers the rotations start from. -/
theorem State.afterEdges_to_init :
    let u := s.afterEdges [.guard, .widen, .mulq, .floork, .resid, .init]
    u.k = (reduce (guardedOperand s.xin)).1 ∧
      u.cordicRegs = initialRegs s.kinvRaw (reduce (guardedOperand s.xin)).2 := by
  simp [reduce_eq]

/-- The rotations leave `k` as it is. -/
theorem State.afterEdges_rotations {l : List Nat} (hl : ∀ j ∈ l, legalIndex (BitVec.ofNat 5 j) = true ∧ j < 32) :
    let u := s.afterEdges (l.map rotInstr)
    u.k = s.k ∧ u.cordicRegs = rotations l s.cordicRegs := by
  induction l generalizing s with
  | nil => exact ⟨rfl, rfl⟩
  | cons j l ih =>
    obtain ⟨⟨hj, hlt⟩, hl'⟩ := List.forall_mem_cons.1 hl
    have hu := ih (s.afterEdge (rotInstr j)) hl'
    rw [State.afterEdge_rotInstr s hj hlt] at hu
    simpa [State.afterEdge_rotInstr s hj hlt, rotations] using hu

/-- `SUM` and `RECON` deliver the sum of the vector registers, scaled by `k` (R114, R124). -/
theorem State.outputs_afterEdges_sum_recon : (s.afterEdges [.sum, .recon]).outputs =
    { busy := false, done := true,
      y_out := reconstruct (narrowCordicToOut (clampSum (cordicSum s.x s.y))) s.k } := by
  simp [State.outputs]

/-- The whole micro-program delivers what the rules of `evaluate` give (R126). -/
theorem State.outputs_afterEdges_microProgram {n : Nat} (hn : n ≤ 30) (rep : List Nat) :
    (s.afterEdges (microProgram n rep)).outputs =
      { busy := false, done := true,
        y_out := evaluateUnder { stageCount := n, repeatSet := rep, kinv := s.kinvRaw } s.xin } := by
  rw [microProgram, State.afterEdges_append, State.afterEdges_append, State.outputs_afterEdges_sum_recon]
  obtain ⟨hk, hc⟩ := s.afterEdges_to_init
  obtain ⟨hk', hc'⟩ := State.afterEdges_rotations
    (s.afterEdges [.guard, .widen, .mulq, .floork, .resid, .init]) (l := schedule n rep)
    fun j hj => ⟨legalIndex_of_mem_schedule hn hj, (le_of_mem_schedule hj).trans_lt (by omega)⟩
  rw [← State.cordicRegs_x, ← State.cordicRegs_y, hc', hc, hk', hk]
  simp [evaluateUnder, cordicWith]

end AfterEdge

/-! ## The transaction -/

/-- A run of `n + 1` steps that ends in a state is a step that answers one and a run of `n` steps from there. -/
theorem exists_step_of_run_succ (M : Host.Core) {n : Nat} {s t : M.State} (h : M.run (n + 1) s = .next t) :
    ∃ u, M.step s = .next u ∧ M.run n u = .next t := by
  rcases hs : M.step s with u | f | r
  · exact ⟨u, rfl, (run_succ_of_step M hs).symm.trans h⟩
  · simp [Host.Core.run, hs] at h
  · simp [Host.Core.run, hs] at h

theorem run_keeps_stores {n : Nat} {s t : State} (h : Host.Core.run core n s = .next t) :
    t.urom = s.urom ∧ t.kinvRaw = s.kinvRaw := by
  induction n generalizing s with
  | zero =>
    cases h
    exact ⟨rfl, rfl⟩
  | succ n ih =>
    obtain ⟨u, hs, hrun⟩ := exists_step_of_run_succ core h
    obtain ⟨hu, hk⟩ := step_keeps_stores hs
    obtain ⟨hu', hk'⟩ := ih hrun
    exact ⟨hu'.trans hu, hk'.trans hk⟩

/-- Settles O24: the accept leaves the micro-program to run, its edges are `State.afterEdge` along it, and that delivers
what the rules of `evaluate` give. -/
theorem anyMicroProgramDelivers : Obligations.AnyMicroProgramDelivers := by
  intro s n rep _ hn hl hu hb hst hr
  rw [← State.pins_eq_pinsAt] at hst ⊢
  obtain ⟨body, hprog, hbody⟩ := microProgram_eq_append_recon hn rep
  have hm : ∀ i ∈ microProgram n rep, isMicroOperation i = true := by
    rw [hprog, List.forall_mem_append]
    exact ⟨fun i hi => (hbody i hi).2.1, by decide⟩
  have hp := Pending.accept hm hu hr s.pins.x_in
  rw [hprog] at hp
  obtain ⟨hrun, hupc⟩ := hp.run_to_end hbody
  rw [← hprog] at hrun hupc
  have hlen : (microProgram n rep).length = body.length + 1 := by rw [hprog, List.length_append]; rfl
  have hend : ((s.tick.accept s.pins.x_in).afterEdges (microProgram n rep)).upc.toNat + 1 =
      (microProgram n rep).length := by
    rw [hupc, hlen, State.accept_upc, zero_add, BitVec.toNat_ofNat, Nat.mod_eq_of_lt (by omega)]
  rw [← hlen] at hrun
  have hall := (core_run_succ (step_accept (pins_rst_of_noReset hr) hb hst)).trans hrun
  obtain ⟨hurom, hkinv⟩ := run_keeps_stores hall
  exact ⟨_, hall, State.outputs_afterEdges_microProgram _ hn rep, hend, fun a => by rw [hurom], hkinv⟩

end Sys2Proof.Machine

/-! PROOF. The Input Guard: what `GUARD` makes of every operand. -/

namespace Sys2Proof.Machine

/-- The two tests that can succeed on a 16-bit word, "above 0" and neither, are the two cases of `min` (R72, R74). -/
theorem toInt_guardedOperand (v : InWord) : (guardedOperand v).toInt = min v.toInt 0 := by
  rw [guardedOperand, zeroShortcut_eq_false, if_neg Bool.false_ne_true, aboveDomain]
  by_cases h : 0 < v.toInt
  · rw [if_pos (decide_eq_true h), min_eq_right h.le]
    rfl
  · rw [if_neg (by simpa using h), min_eq_left (not_lt.1 h)]

theorem guardedOperand_le_zero (v : InWord) : (guardedOperand v).toInt ≤ 0 :=
  (toInt_guardedOperand v).trans_le (min_le_right _ _)

/-- Settles O11: `exec_guard` gives the update, `toInt_guardedOperand` the value; every 16-bit word is at least -32768. -/
theorem guardClampsIntoDomain : Obligations.GuardClampsIntoDomain := by
  refine ⟨decode_encode (i := .guard) rfl, fun s => ⟨_, exec_guard s, rfl, ⟨fun _ => rfl, rfl⟩, ?_⟩⟩
  exact ⟨toInt_guardedOperand s.xin, BitVec.le_toInt _, guardedOperand_le_zero s.xin⟩

end Sys2Proof.Machine

/-! PROOF. Format conversion: the three conversion functions against the general law of conversion, and what `WIDEN`
makes of every word. -/

namespace Sys2Proof.Machine

/-! ## The general law -/

section GeneralLaw
variable {src dst : Format}

/-- Towards at least as many fraction bits the general law appends zero bits (R77). -/
theorem convert_of_le (h : src.fracBits ≤ dst.fracBits) (w : BitVec src.width) :
    convert src dst w = wrap dst.width (src.raw w * 2 ^ (dst.fracBits - src.fracBits)) := if_pos h

/-- Towards fewer fraction bits the general law drops bits by `floor` (R77). -/
theorem convert_of_lt (h : dst.fracBits < src.fracBits) (w : BitVec src.width) :
    convert src dst w = wrap dst.width (src.raw w / 2 ^ (src.fracBits - dst.fracBits)) := if_neg h.not_ge

/-- A word whose integer is that of another with `d` zero bits appended, and whose format has `d` more fraction bits,
denotes the same number (R11). -/
theorem Format.value_eq_of_raw {d : Nat} (hf : dst.fracBits = src.fracBits + d) {v : BitVec src.width}
    {w : BitVec dst.width} (hr : dst.raw w = src.raw v * 2 ^ d) : dst.value w = src.value v := by
  have hd : ((2 : Rat) ^ d) ≠ 0 := by positivity
  rw [Format.value, Format.value, hr, hf, pow_add]
  push_cast
  exact mul_div_mul_right _ _ hd

end GeneralLaw

/-- R80 reads the sum unsigned, R77 as its format is signed: the two integers of a word differ by 0 or 2^32, the
quotients by 64 by 0 or 2^26, and the low 24 bits not at all. -/
theorem narrowCordicToOut_eq_wrap_toInt (e : CordicWord) : narrowCordicToOut e = wrap 24 (e.toInt / 64) := by
  apply BitVec.eq_of_toNat_eq
  rw [narrowCordicToOut, wrap, wrap, BitVec.toNat_ofInt, BitVec.toNat_ofInt, BitVec.toInt_eq_toNat_cond]
  split <;> omega

/-- Settles O43: `WIDEN` and the residual's narrowing append 4 and 13 zero bits as the formats' fraction bits
ask, and the sum's narrowing, read as signed, drops 6. -/
theorem conversionsFollowGeneralLaw : Obligations.ConversionsFollowGeneralLaw := by
  have hwiden : fmtIn.fracBits ≤ fmtRr.fracBits := by decide
  have hresidual : fmtRr.fracBits ≤ fmtCordic.fracBits := by decide
  have hsum : fmtOut.fracBits < fmtCordic.fracBits := by decide
  refine ⟨fun v => ?_, fun r => ?_, fun e => ?_⟩
  · rw [convert_of_le hwiden]
    rfl
  · rw [convert_of_le hresidual]
    rfl
  · rw [convert_of_lt hsum, narrowCordicToOut_eq_wrap_toInt]
    rfl

/-! ## `WIDEN` -/

/-- Sixteen times a 16-bit word's integer needs at most 20 of the 24 bits, so the wrap of R78 loses nothing. -/
theorem toInt_widenInToRr (v : InWord) : (widenInToRr v).toInt = v.toInt * 16 := by
  have hlo := BitVec.le_toInt v
  have hhi := BitVec.toInt_lt (x := v)
  exact toInt_wrap (by omega) (by omega)

/-- The bit form of R78: both words have the same integer. -/
theorem widenInToRr_eq_append (v : InWord) : widenInToRr v = v.signExtend 20 ++ 0#4 := by
  apply BitVec.eq_of_toInt_eq
  rw [toInt_widenInToRr, BitVec.toInt_append, BitVec.toInt_signExtend_of_le (by decide)]
  simp [mul_comm]

theorem value_widenInToRr (v : InWord) : fmtRr.value (widenInToRr v) = fmtIn.value v :=
  Format.value_eq_of_raw (d := 4) rfl (toInt_widenInToRr v)

theorem exec_widen (s : State) : exec .widen s = .next (s.setXw (widenInToRr s.xg)).advance := rfl

/-- Settles O12: `exec_widen` gives the update, and the three lemmas on `widenInToRr` the bits, the integer and the
number of the word it writes. -/
theorem widenIsExact : Obligations.WidenIsExact := by
  refine ⟨decode_encode (i := .widen) rfl, fun s => ⟨_, exec_widen s, rfl, ⟨fun _ => rfl, rfl⟩, ?_⟩⟩
  exact ⟨widenInToRr_eq_append s.xg, toInt_widenInToRr s.xg, value_widenInToRr s.xg⟩

end Sys2Proof.Machine

/-! PROOF. The Range Reducer: what `MULQ`, `FLOORK` and `RESID` make of every state, the ranges of `k` and of the residual
over the guarded operands, and the scalar constants as truncations of real numbers. -/

namespace Sys2Proof.Machine

/-! ## Bit forms of wrapped integers -/

/-- The floor of a word's signed integer by `2^n`, wrapped to `W` bits that lie inside the word, is a field of it. -/
theorem wrap_toInt_div_eq_extractLsb' {m n W : Nat} (h : n + W ≤ m) (v : BitVec m) :
    wrap W (v.toInt / 2 ^ n) = v.extractLsb' n W := by
  have hfloor : v.toInt / 2 ^ n = (v.sshiftRight n).toInt := by
    rw [BitVec.toInt_sshiftRight, Int.shiftRight_eq_div_pow]
    norm_cast
  have hcut : wrap W (v.sshiftRight n).toInt = (v.sshiftRight n).setWidth W :=
    BitVec.signExtend_eq_setWidth_of_le _ (by omega)
  rw [hfloor, hcut]
  ext i hi
  simp [BitVec.getLsbD_sshiftRight, show n + i < m by omega, show ¬ m ≤ i by omega]

theorem wrap_sub {W : Nat} (a b : Int) : wrap W (a - b) = wrap W a - wrap W b := by
  rw [wrap, Int.sub_eq_add_neg, BitVec.ofInt_add, BitVec.ofInt_neg, ← BitVec.sub_eq_add_neg]
  rfl

/-! ## `MULQ` -/

theorem exec_mulq (s : State) : exec .mulq s = .next (s.setQ (quotient s.xw)).advance := rfl

theorem quotient_eq_ofInt (xw : RrWord) : quotient xw = BitVec.ofInt 24 (xw.toInt * 94548 / 65536) := rfl

/-- Both factors of the 48-bit product fit 24 bits, so the product is exact (R86). -/
theorem toInt_signExtend_mul_invLn2 (xw : RrWord) :
    (xw.signExtend 48 * 94548#48).toInt = xw.toInt * 94548 := by
  have hlo := BitVec.le_toInt xw
  have hhi := BitVec.toInt_lt (x := xw)
  have hprod : xw.signExtend 48 * 94548#48 = wrap 48 (xw.toInt * 94548) := (BitVec.ofInt_mul xw.toInt 94548).symm
  rw [hprod]
  exact toInt_wrap (by omega) (by omega)

theorem quotient_eq_extractLsb' (xw : RrWord) :
    quotient xw = (xw.signExtend 48 * 94548#48).extractLsb' 16 24 := by
  rw [← wrap_toInt_div_eq_extractLsb' (by decide), toInt_signExtend_mul_invLn2]
  rfl

/-- On what `WIDEN` can produce the quotient fits 21 bits, so the wrap of R86 loses nothing. -/
theorem toInt_quotient {xw : RrWord} (hlo : -524288 ≤ xw.toInt) (hhi : xw.toInt ≤ 524288) :
    (quotient xw).toInt = xw.toInt * 94548 / 65536 :=
  toInt_wrap (n := xw.toInt * 94548 / 65536) (by omega) (by omega)

/-- Settles O13: `exec_mulq` gives the update, `quotient_eq_extractLsb'` the bits of the product and `toInt_quotient` the
integer where nothing wraps. -/
theorem mulqTakesProductBits : Obligations.MulqTakesProductBits := by
  refine ⟨decode_encode (i := .mulq) rfl, fun s => ⟨_, exec_mulq s, rfl, ⟨fun _ => rfl, rfl⟩,
    quotient_eq_ofInt s.xw, quotient_eq_extractLsb' s.xw, fun hlo hhi => ?_⟩⟩
  have hq : (s.setQ (quotient s.xw)).advance.q.toInt = s.xw.toInt * 94548 / 65536 := toInt_quotient hlo hhi
  exact ⟨hq, by omega, by omega⟩

/-! ## `FLOORK` -/

theorem exec_floork (s : State) : exec .floork s = .next (s.setK (truncateAndCorrect s.q)).advance := rfl

/-- A 24-bit word's integer divided by 2^16 fits eight bits. -/
theorem toInt_wrap_floor (q : RrWord) : (wrap 8 (q.toInt / 65536)).toInt = q.toInt / 65536 := by
  have hlo := BitVec.le_toInt q
  have hhi := BitVec.toInt_lt (x := q)
  exact toInt_wrap (by omega) (by omega)

/-- Settles O14: truncate and correct is the floor (`truncateAndCorrect_eq_floor`), which fits `k` and is a field of `q`. -/
theorem floorkIsFloor : Obligations.FloorkIsFloor := by
  refine ⟨decode_encode (i := .floork) rfl, fun s => ⟨_, exec_floork s, rfl, ⟨fun _ => rfl, rfl⟩, ?_⟩⟩
  rw [truncateAndCorrect_eq_floor]
  exact ⟨toInt_wrap_floor s.q, wrap_toInt_div_eq_extractLsb' (n := 16) (by decide) s.q⟩

/-! ## `RESID` -/

theorem exec_resid (s : State) : exec .resid s = .next (s.setR (residualOf s.xw s.k)).advance := rfl

theorem residualOf_eq_ofInt (xw : RrWord) (k : KWord) :
    residualOf xw k = BitVec.ofInt 24 (xw.toInt - k.toInt * 45426) := rfl

/-- The wrapped difference is the difference of the wrapped terms. -/
theorem residualOf_eq_sub (xw : RrWord) (k : KWord) : residualOf xw k = xw - k.signExtend 24 * 45426#24 := by
  have hmul : wrap 24 (k.toInt * 45426) = k.signExtend 24 * 45426#24 := BitVec.ofInt_mul k.toInt 45426
  rw [← hmul, ← wrap_toInt_self xw, ← wrap_sub, wrap_toInt_self]
  rfl

theorem toInt_residualOf {xw : RrWord} {k : KWord} (hlo : -8388608 ≤ xw.toInt - k.toInt * 45426)
    (hhi : xw.toInt - k.toInt * 45426 < 8388608) : (residualOf xw k).toInt = xw.toInt - k.toInt * 45426 :=
  toInt_wrap (n := xw.toInt - k.toInt * 45426) (by omega) (by omega)

/-- Settles O15: `exec_resid` gives the update, `residualOf_eq_sub` the subtraction modulo 2^24 and `toInt_residualOf` the
exact one. -/
theorem residSubtractsMultipleOfLn2 : Obligations.ResidSubtractsMultipleOfLn2 := by
  refine ⟨decode_encode (i := .resid) rfl, fun s => ⟨_, exec_resid s, rfl, ⟨fun _ => rfl, rfl⟩,
    residualOf_eq_ofInt s.xw s.k, residualOf_eq_sub s.xw s.k, fun hlo hhi => ?_⟩⟩
  have hr : (s.setR (residualOf s.xw s.k)).advance.r.toInt = s.xw.toInt - s.k.toInt * 45426 :=
    toInt_residualOf hlo hhi
  omega

/-! ## The Range Reducer over the guarded operands -/

section Reduce
variable {xg : InWord} (h : xg.toInt ≤ 0)
include h

/-- `k` in integers: the two floors of R86 and R88 are one, and 16·94548 / 2^32 in lowest terms is 23637 / 2^26. -/
theorem toInt_reduce_k : (reduce xg).1.toInt = xg.toInt * 23637 / 67108864 := by
  have hlo := BitVec.le_toInt xg
  have hxw := toInt_widenInToRr xg
  have hq := toInt_quotient (xw := widenInToRr xg) (by omega) (by omega)
  have hk : (reduce xg).1.toInt = (quotient (widenInToRr xg)).toInt / 65536 := toInt_wrap_floor _
  omega

theorem reduce_k_mem : -12 ≤ (reduce xg).1.toInt ∧ (reduce xg).1.toInt ≤ 0 := by
  have hlo := BitVec.le_toInt xg
  have hk := toInt_reduce_k h
  omega

/-- The residual in integers: with `k` in -12..0 the difference of R90 fits 24 bits. -/
theorem toInt_reduce_r : (reduce xg).2.toInt = xg.toInt * 16 - (reduce xg).1.toInt * 45426 := by
  have hlo := BitVec.le_toInt xg
  have hxw := toInt_widenInToRr xg
  obtain ⟨hk, hk'⟩ := reduce_k_mem h
  have hr := toInt_residualOf (xw := widenInToRr xg) (k := (reduce xg).1) (by omega) (by omega)
  exact hxw ▸ hr

/-- For each of the thirteen `k` the operands that have it are an interval (`toInt_reduce_k`), on which the residual grows
with the operand: its ends give the range, and only the interval of `k = -7` starts with a negative residual (R92, R93). -/
theorem reduce_r_mem : -2 ≤ (reduce xg).2.toInt ∧ (reduce xg).2.toInt ≤ 45422 ∧
    ((reduce xg).2.toInt < 0 ↔ xg.toInt = -19874) := by
  have hfloor := toInt_reduce_k h
  have hr := toInt_reduce_r h
  obtain ⟨hk, hk'⟩ := reduce_k_mem h
  generalize (reduce xg).1.toInt = k at *
  rw [hr]
  interval_cases k <;> omega

end Reduce

/-- Settles O36: `reduce_k_mem` and `reduce_r_mem` give the ranges, `toInt_reduce_r` the identity. -/
theorem reducerRanges : Obligations.ReducerRanges := by
  intro xg h
  obtain ⟨hk, hk'⟩ := reduce_k_mem h
  obtain ⟨hr, hr', -⟩ := reduce_r_mem h
  have hexact := toInt_reduce_r h
  exact ⟨hk, hk', hr, hr', by omega⟩

/-- Settles O37: the operand 0xB25E is the word of the integer -19874. -/
theorem oneNegativeResidual : Obligations.OneNegativeResidual := by
  intro xg h
  obtain ⟨-, -, hneg⟩ := reduce_r_mem h
  exact hneg.trans (BitVec.toInt_inj (y := 0xB25E#16))

/-! ## The scalar constants -/

/-- The decimal digits of ln 2 place 2^16/ln 2 between 94548 and 94549 (R84). -/
theorem floor_inv_log_two : ⌊1 / Real.log 2 * 2 ^ 16⌋ = invLn2.toInt := by
  have hlo := Real.log_two_gt_d9
  have hhi := Real.log_two_lt_d9
  have hpos : 0 < Real.log 2 := by positivity
  have hword : invLn2.toInt = 94548 := rfl
  rw [hword, Int.floor_eq_iff, div_mul_eq_mul_div, le_div_iff₀ hpos, div_lt_iff₀ hpos]
  push_cast
  constructor <;> linarith

/-- The decimal digits of ln 2 place 2^16·ln 2 between 45426 and 45427 (R85). -/
theorem floor_log_two : ⌊Real.log 2 * 2 ^ 16⌋ = ln2.toInt := by
  have hlo := Real.log_two_gt_d9
  have hhi := Real.log_two_lt_d9
  have hword : ln2.toInt = 45426 := rfl
  rw [hword, Int.floor_eq_iff]
  push_cast
  constructor <;> linarith

/-- The document's decimal literal of the gain inverse, cut to 29 fraction bits (R101). -/
theorem floor_gainInverse : ⌊(1.207497067763072 : ℝ) * 2 ^ 29⌋ = kinv.toInt := by
  have hword : kinv.toInt = 648270052 := rfl
  rw [hword, Int.floor_eq_iff]
  norm_num

/-- Settles O44: one lemma for each constant. -/
theorem scalarConstantsAreTruncated : Obligations.ScalarConstantsAreTruncated :=
  ⟨floor_inv_log_two, floor_log_two, floor_gainInverse⟩

end Sys2Proof.Machine

/-! PROOF. The rotation sequence and the table it reads: the order and the counts of `S(N, R)`, and the words of `ATANH`
as truncations of the inverse hyperbolic tangent, placed by its power series. -/

namespace Sys2Proof.Machine

/-! ## The rotation sequence -/

/-- One stage more appends its index, twice if it is in `R` (R104). -/
theorem schedule_succ (n : Nat) (rep : List Nat) :
    schedule (n + 1) rep = schedule n rep ++ List.replicate (if n + 1 ∈ rep then 2 else 1) (n + 1) := by
  have hblock : (if n + 1 ∈ rep then [n + 1, n + 1] else [n + 1]) =
      List.replicate (if n + 1 ∈ rep then 2 else 1) (n + 1) := by
    split <;> rfl
  simp [schedule, List.range_succ, hblock]

/-- Every index already in the sequence is at most the stage count, so the next stage's index keeps the order. -/
theorem pairwise_le_schedule (n : Nat) (rep : List Nat) : (schedule n rep).Pairwise (· ≤ ·) := by
  induction n with
  | zero => exact List.Pairwise.nil
  | succ n ih =>
    rw [schedule_succ, List.pairwise_append]
    refine ⟨ih, List.pairwise_replicate_of_refl, fun i hi j hj => ?_⟩
    obtain rfl := List.eq_of_mem_replicate hj
    exact (le_of_mem_schedule hi).trans n.le_succ

theorem count_schedule (n : Nat) (rep : List Nat) (i : Nat) :
    (schedule n rep).count i = if 1 ≤ i ∧ i ≤ n then (if i ∈ rep then 2 else 1) else 0 := by
  induction n with
  | zero => exact (if_neg (by omega)).symm
  | succ n ih =>
    rw [schedule_succ, List.count_append, ih, List.count_replicate]
    by_cases hi : i = n + 1
    · subst hi
      simp
    · have hrange : (1 ≤ i ∧ i ≤ n + 1) ↔ (1 ≤ i ∧ i ≤ n) := by omega
      simp [hrange, Ne.symm hi]

/-- Settles O47: order and counts by induction on the stage count; the default sequence is computed. -/
theorem scheduleRunsEachIndexInOrder : Obligations.ScheduleRunsEachIndexInOrder :=
  ⟨fun n rep => ⟨pairwise_le_schedule n rep, count_schedule n rep⟩, by decide⟩

/-! ## The table of inverse hyperbolic tangents -/

/-- The first `n` terms of the power series of the inverse hyperbolic tangent, `x + x³/3 + x⁵/5 + …`. -/
noncomputable def atanhPartialSum (x : ℝ) (n : Nat) : ℝ := ∑ k ∈ Finset.range n, x ^ (2 * k + 1) / (2 * k + 1)

/-- A bound on the sum of the terms after the first `n`: without their denominators they form a geometric series. -/
noncomputable def atanhRestBound (x : ℝ) (n : Nat) : ℝ := x ^ (2 * n + 1) / (1 - x ^ 2)

/-- The series places the inverse hyperbolic tangent between a partial sum and that sum with its rest bound: an integer
that is the floor of both ends, scaled to 29 fraction bits, is the floor of the scaled inverse hyperbolic tangent. -/
theorem floor_atanh_eq {x : ℝ} (hx : 0 ≤ x) (hx' : x < 1) (n : Nat) {w : Int}
    (hlo : w ≤ atanhPartialSum x n * 2 ^ 29)
    (hhi : (atanhPartialSum x n + atanhRestBound x n) * 2 ^ 29 < w + 1) :
    ⌊1 / 2 * Real.log ((1 + x) / (1 - x)) * 2 ^ 29⌋ = w := by
  have hsum : atanhPartialSum x n ≤ 1 / 2 * Real.log ((1 + x) / (1 - x)) := Real.sum_range_le_log_div hx hx' n
  have hrest : 1 / 2 * Real.log ((1 + x) / (1 - x)) ≤ atanhPartialSum x n + atanhRestBound x n :=
    Real.log_div_le_sum_range_add hx hx' n
  rw [Int.floor_eq_iff]
  constructor <;> linarith

/-- The rest after `15 / i + 1` terms at `x = 2^-i` is below `2^-32`, small enough that each word is the floor of both
ends: thirty comparisons of rational numbers (R98). -/
theorem atanhWord_floors_series {i : Nat} (hi : 1 ≤ i) (hi' : i ≤ 30) :
    (atanhWord i).toInt ≤ atanhPartialSum (1 / 2 ^ i) (15 / i + 1) * 2 ^ 29 ∧
    (atanhPartialSum (1 / 2 ^ i) (15 / i + 1) + atanhRestBound (1 / 2 ^ i) (15 / i + 1)) * 2 ^ 29 <
      (atanhWord i).toInt + 1 := by
  interval_cases i <;>
    norm_num [atanhPartialSum, atanhRestBound, Finset.sum_range_succ, atanhWord, memReadAtanh, atanhTable,
      BitVec.toInt_ofNat, Int.bmod]

/-- Settles O45: each word is the floor of both ends of the interval that the power series gives. -/
theorem atanhTableIsTruncated : Obligations.AtanhTableIsTruncated := by
  intro i hi hi'
  obtain ⟨hlo, hhi⟩ := atanhWord_floors_series hi hi'
  have hx : (1 / 2 ^ i : ℝ) < 1 := by
    rw [one_div]
    exact inv_lt_one_of_one_lt₀ (one_lt_pow₀ one_lt_two (by omega))
  exact floor_atanh_eq (by positivity) hx _ hlo hhi

end Sys2Proof.Machine

/-! PROOF. The CORDIC core: what `INIT`, `ROT` and `SUM` make of every state, and the rotations of the default sequence over
the integers. One rotation moves the sums `x + y` and `x - y`, and the angle in `z`, from bounds to bounds that depend on its
index alone; along the sequence the bounds are computed. -/

namespace Sys2Proof.Machine

/-! ## `INIT` -/

theorem exec_init (s : State) : exec .init s = .next (s.setCordicRegs (initialRegs s.kinvRaw s.r)).advance := rfl

/-- Thirteen zero bits behind the low bits of `r`: the scaled integer of R79 modulo 2^32 (R108). -/
theorem narrowRrToCordic_eq_append (r : RrWord) : narrowRrToCordic r = r.extractLsb' 0 19 ++ 0#13 := by
  apply BitVec.eq_of_toNat_eq
  rw [narrowRrToCordic, wrap, BitVec.toNat_ofInt, BitVec.toInt_eq_toNat_cond, BitVec.toNat_append]
  simp only [BitVec.extractLsb'_toNat, BitVec.toNat_ofNat, Nat.shiftLeft_eq, Nat.shiftRight_zero, Nat.zero_mod,
    Nat.or_zero]
  split <;> omega

/-- Settles O16: `exec_init` gives the update, `narrowRrToCordic_eq_append` the bits of `z`. -/
theorem initLoadsCordicRegisters : Obligations.InitLoadsCordicRegisters := by
  refine ⟨decode_encode (i := .init) rfl, fun s hk => ⟨_, exec_init s, ?_, ⟨fun _ => rfl, rfl⟩, rfl,
    narrowRrToCordic_eq_append s.r⟩⟩
  rw [← hk]
  rfl

/-! ## `ROT` -/

/-- Inside the table the word is an entry of it (R39, R98). -/
theorem memReadAtanh_of_le {i : Nat} (h : i ≤ 30) : memReadAtanh i = some (atanhWord i) := by
  have hlt : i < atanhTable.length := Nat.lt_succ_of_le h
  simp [atanhWord, memReadAtanh, hlt]

theorem exec_rot_of_legal {idx : RotIndex} (h : legalIndex idx = true) (s : State) :
    exec (.rot idx) s = .next (s.setCordicRegs (rotate idx.toNat s.cordicRegs)).advance := if_pos h

theorem rotate_of_nonneg {c : CordicRegs} (h : 0 ≤ c.z.toInt) (i : Nat) : rotate i c =
    { x := c.x + c.y.sshiftRight i, y := c.y + c.x.sshiftRight i, z := c.z - atanhWord i } := by
  simp only [rotate, direction, h, decide_true, if_true, addWrap_eq_add, subWrap_eq_sub, asr_eq_sshiftRight]

theorem rotate_of_neg {c : CordicRegs} (h : c.z.toInt < 0) (i : Nat) : rotate i c =
    { x := c.x - c.y.sshiftRight i, y := c.y - c.x.sshiftRight i, z := c.z + atanhWord i } := by
  simp [rotate, direction, h.not_ge, addWrap_eq_add, subWrap_eq_sub, asr_eq_sshiftRight]

/-- Settles O17: `exec_rot_of_legal` gives the update, and the sign of the old `z` chooses between the two forms of
`rotate`. -/
theorem rotIsPseudoRotation : Obligations.RotIsPseudoRotation := by
  intro s idx hlo hhi
  have hlegal : legalIndex idx = true := by simp [legalIndex, hlo, hhi]
  refine ⟨decode_encode (i := .rot idx) hlegal, _, _, memReadAtanh_of_le hhi, exec_rot_of_legal hlegal s, rfl,
    ⟨fun _ => rfl, rfl⟩, fun hz => ?_, fun hz => ?_⟩
  · rw [rotate_of_nonneg (c := s.cordicRegs) hz]
    exact ⟨rfl, rfl, rfl⟩
  · rw [rotate_of_neg (c := s.cordicRegs) hz]
    exact ⟨rfl, rfl, rfl⟩

/-- Settles O18: bits 7:5 of the word and its index field do not overlap, so `+` and `|` give one word for each term. -/
theorem rotOutsideTableIsRefused : Obligations.RotOutsideTableIsRefused := by
  rintro s idx (h | h)
  · obtain rfl : idx = 0 := BitVec.eq_of_toNat_eq h
    rfl
  · obtain rfl : idx = 31 := BitVec.eq_of_toNat_eq h
    rfl

/-! ## `SUM` -/

theorem exec_sum (s : State) : exec .sum s =
    .next (s.setSum (cordicSum s.x s.y) (narrowCordicToOut (clampSum (cordicSum s.x s.y)))).advance := rfl

theorem clampSum_of_neg {t : CordicWord} (h : t.toInt < 0) : clampSum t = 0 := if_pos (decide_eq_true h)

theorem clampSum_of_nonneg {t : CordicWord} (h : 0 ≤ t.toInt) : clampSum t = t :=
  if_neg (by simpa [negativeSum] using h)

/-- The bit form of R80, for every word. -/
theorem narrowCordicToOut_eq_extractLsb' (e : CordicWord) : narrowCordicToOut e = e.extractLsb' 6 24 := by
  rw [narrowCordicToOut_eq_wrap_toInt]
  exact wrap_toInt_div_eq_extractLsb' (n := 6) (by decide) e

/-- Settles O19: `exec_sum` gives the update, and the sign of the sum the case of the clamp. -/
theorem sumClampsAndNarrows : Obligations.SumClampsAndNarrows := by
  refine ⟨decode_encode (i := .sum) rfl, fun s => ⟨_, exec_sum s, rfl, ⟨fun _ => rfl, rfl⟩,
    addWrap_eq_add s.x s.y, fun h => ?_, fun h => ?_⟩⟩
  · exact congrArg narrowCordicToOut (clampSum_of_neg h)
  · exact (congrArg narrowCordicToOut (clampSum_of_nonneg h)).trans (narrowCordicToOut_eq_extractLsb' _)

/-- Below 2.0 the sum without its six low bits fits 24 bits, so the wrap of R80 loses nothing. -/
theorem toNat_narrowCordicToOut {e : CordicWord} (h : e.toNat < 0x40000000) :
    (narrowCordicToOut e).toNat = e.toNat / 64 := toNat_wrap (n := e.toNat / 64) (by omega)

/-- Settles O42: below 2.0 both orders are the two divisions of one natural number, which commute. -/
theorem narrowingAndScalingCommute : Obligations.NarrowingAndScalingCommute := by
  intro e n h
  have hshift : (lsr e n).toNat < 0x40000000 := by
    rw [lsr_toNat]
    exact (Nat.div_le_self _ _).trans_lt h
  apply BitVec.eq_of_toNat_eq
  rw [toNat_narrowCordicToOut hshift, lsr_toNat, lsr_toNat, toNat_narrowCordicToOut h]
  exact Nat.div_right_comm _ _ _

/-! ## A rotation over the integers -/

/-- The direction of a rotation as the factor of its updates: 1 when `z` is not negative, else -1 (R26, R109). -/
def turn (z : CordicWord) : Int := if 0 ≤ z.toInt then 1 else -1

theorem turn_cases (z : CordicWord) : (0 ≤ z.toInt ∧ turn z = 1) ∨ (z.toInt < 0 ∧ turn z = -1) :=
  (le_or_gt 0 z.toInt).imp (fun h => ⟨h, if_pos h⟩) (fun h => ⟨h, if_neg h.not_ge⟩)

theorem turn_eq_one_or (z : CordicWord) : turn z = 1 ∨ turn z = -1 :=
  (turn_cases z).imp And.right And.right

theorem toInt_asr {W : Nat} (v : BitVec W) (n : Nat) : (asr v n).toInt = v.toInt / 2 ^ n := by
  rw [asr_eq_sshiftRight, BitVec.toInt_sshiftRight, Int.shiftRight_eq_div_pow]
  norm_cast

/-- Both directions in one: each update is a wrapped integer (R109). -/
theorem rotate_eq_wrap (i : Nat) (c : CordicRegs) : rotate i c =
    { x := wrap 32 (c.x.toInt + turn c.z * (c.y.toInt / 2 ^ i))
      y := wrap 32 (c.y.toInt + turn c.z * (c.x.toInt / 2 ^ i))
      z := wrap 32 (c.z.toInt - turn c.z * (atanhWord i).toInt) } := by
  rcases turn_cases c.z with ⟨hz, ht⟩ | ⟨hz, ht⟩
  · simp [rotate, direction, hz, ht, addWrap, subWrap, toInt_asr]
  · simp [rotate, direction, hz.not_ge, ht, addWrap, subWrap, toInt_asr, Int.sub_eq_add_neg]

/-! ## The sums `x + y` and `x - y` under a rotation -/

/-- Bounds on an integer. -/
structure Bounds where
  lo : Int
  hi : Int

/-- The integer lies between the bounds. -/
abbrev Bounds.Mem (b : Bounds) (u : Int) : Prop := b.lo ≤ u ∧ u ≤ b.hi

/-- A rotation at index `i` takes one of the sums times `1 + 2^-i` and the other times `1 - 2^-i`, up to 1 for the floors of
the shifted copies: what bounds both sums before it becomes this, whatever its direction. -/
def Bounds.rotate (b : Bounds) (i : Nat) : Bounds where
  lo := b.lo - b.lo / 2 ^ i - 1
  hi := b.hi + b.hi / 2 ^ i + 1

/-- The sums `x + y` and `x - y`, as integers, lie between the bounds. -/
structure Bounds.HoldSums (b : Bounds) (x y : Int) : Prop where
  add : b.Mem (x + y)
  sub : b.Mem (x - y)

/-- The floors of two quotients and the floor of their sum's quotient differ by at most 1. -/
theorem ediv_add_ediv_bounds {D : Int} (hD : 0 < D) (a b : Int) :
    a / D + b / D ≤ (a + b) / D ∧ (a + b) / D ≤ a / D + b / D + 1 := by
  have ha := Int.mul_ediv_add_emod a D
  have hb := Int.mul_ediv_add_emod b D
  have ha' := Int.emod_lt_of_pos a hD
  have hb' := Int.emod_lt_of_pos b hD
  have ha0 := Int.emod_nonneg a hD.ne'
  have hb0 := Int.emod_nonneg b hD.ne'
  constructor
  · rw [Int.le_ediv_iff_mul_le hD]
    linarith
  · rw [← Int.lt_add_one_iff, Int.ediv_lt_iff_lt_mul hD]
    linarith

theorem sub_ediv_le_sub_ediv {D : Int} (hD : 0 < D) {a b : Int} (h : a ≤ b) : a - a / D ≤ b - b / D := by
  have hle : b / D ≤ (a + (b - a) * D) / D := Int.ediv_le_ediv hD (by nlinarith)
  rw [Int.add_mul_ediv_right _ _ hD.ne'] at hle
  omega

/-- A sum `u` that gains or loses `u / 2^i`, up to 1, moves from the bounds to the rotated ones. -/
theorem Bounds.Mem.rotate {b : Bounds} {u p d : Int} {i : Nat} (h : b.Mem u) (hb : 0 ≤ b.lo) (hd : d = 1 ∨ d = -1)
    (hlo : u / 2 ^ i - 1 ≤ p) (hhi : p ≤ u / 2 ^ i + 1) : (b.rotate i).Mem (u + d * p) := by
  obtain ⟨hu, hu'⟩ := h
  have hD : (0 : Int) < 2 ^ i := by positivity
  have hnonneg : 0 ≤ u / 2 ^ i := Int.ediv_nonneg (hb.trans hu) hD.le
  have hgrow : u / 2 ^ i ≤ b.hi / 2 ^ i := Int.ediv_le_ediv hD hu'
  have hshrink : b.lo - b.lo / 2 ^ i ≤ u - u / 2 ^ i := sub_ediv_le_sub_ediv hD hu
  rcases hd with rfl | rfl <;> constructor <;> simp only [Bounds.rotate] <;> omega

theorem Bounds.HoldSums.rotate {b : Bounds} {x y d : Int} (h : b.HoldSums x y) (hb : 0 ≤ b.lo)
    (hd : d = 1 ∨ d = -1) (i : Nat) : (b.rotate i).HoldSums (x + d * (y / 2 ^ i)) (y + d * (x / 2 ^ i)) := by
  have hD : (0 : Int) < 2 ^ i := by positivity
  obtain ⟨hadd, hadd'⟩ := ediv_add_ediv_bounds hD x y
  obtain ⟨hsub, hsub'⟩ := ediv_add_ediv_bounds hD (x - y) y
  rw [Int.sub_add_cancel] at hsub hsub'
  constructor
  · have hp := h.add.rotate (i := i) (p := x / 2 ^ i + y / 2 ^ i) hb hd (by omega) (by omega)
    convert hp using 1
    ring
  · have hp := h.sub.rotate (i := i) (p := x / 2 ^ i - y / 2 ^ i) (d := -d) hb (by omega) (by omega) (by omega)
    convert hp using 1
    ring

/-- Bounds above 0 and inside the range of a signed word. -/
abbrev Bounds.Fit (b : Bounds) : Prop := 0 < b.lo ∧ b.hi < 2 ^ 31

/-- When both sums fit a word so do `x` and `y`, their half sum and half difference. -/
theorem Bounds.HoldSums.toInt_wrap {b : Bounds} {x y : Int} (h : b.HoldSums x y) (hb : b.Fit) :
    (wrap 32 x).toInt = x ∧ (wrap 32 y).toInt = y := by
  obtain ⟨⟨h1, h2⟩, ⟨h3, h4⟩⟩ := h
  obtain ⟨hlo, hhi⟩ := hb
  exact ⟨Machine.toInt_wrap (by omega) (by omega), Machine.toInt_wrap (by omega) (by omega)⟩

/-! ## The rotations of the default sequence -/

/-- The registers after the first `m` rotations for the residual `r` (R108, R111). -/
def regsAfter (r : RrWord) (m : Nat) : CordicRegs := rotations ((schedule 15 [4, 13]).take m) (initialRegs kinv r)

/-- Bounds on the two sums after the first `m` rotations, whatever their directions. -/
def sumBoundsAfter (m : Nat) : Bounds :=
  ((schedule 15 [4, 13]).take m).foldl Bounds.rotate { lo := kinv.toInt, hi := kinv.toInt }

theorem regsAfter_succ {m i : Nat} (h : (schedule 15 [4, 13])[m]? = some i) (r : RrWord) :
    regsAfter r (m + 1) = rotate i (regsAfter r m) := rotations_take_succ h _

theorem sumBoundsAfter_succ {m i : Nat} (h : (schedule 15 [4, 13])[m]? = some i) :
    sumBoundsAfter (m + 1) = (sumBoundsAfter m).rotate i := by
  simp [sumBoundsAfter, List.take_add_one, h]

/-- Seventeen rotations, all of them growing a sum or all of them shrinking it, still leave it above 0 and below 2^31. -/
theorem sumBoundsAfter_fit : ∀ m ≤ 17, (sumBoundsAfter m).Fit := by decide

theorem exists_rotation {m : Nat} (h : m < 17) : ∃ i, (schedule 15 [4, 13])[m]? = some i :=
  ⟨_, List.getElem?_eq_getElem h⟩

theorem lt_of_rotation {m i : Nat} (h : (schedule 15 [4, 13])[m]? = some i) : m < 17 :=
  (List.getElem?_eq_some_iff.1 h).1

/-- Bounds that fit before and after a rotation make its updates of `x` and `y` exact. -/
theorem Bounds.HoldSums.rotate_exact {b : Bounds} {c : CordicRegs} {i : Nat} (h : b.HoldSums c.x.toInt c.y.toInt)
    (hb : b.Fit) (hb' : (b.rotate i).Fit) :
    (Machine.rotate i c).x.toInt = c.x.toInt + turn c.z * (c.y.toInt / 2 ^ i) ∧
    (Machine.rotate i c).y.toInt = c.y.toInt + turn c.z * (c.x.toInt / 2 ^ i) := by
  rw [rotate_eq_wrap]
  exact (h.rotate hb.1.le (turn_eq_one_or c.z) i).toInt_wrap hb'

/-- For every residual word, reachable or not, since the bounds hold for both directions of each rotation. -/
theorem holdSums_regsAfter (r : RrWord) {m : Nat} (hm : m ≤ 17) :
    (sumBoundsAfter m).HoldSums (regsAfter r m).x.toInt (regsAfter r m).y.toInt := by
  induction m with
  | zero =>
    have hstart : (sumBoundsAfter 0).HoldSums kinv.toInt 0 := ⟨by decide, by decide⟩
    exact hstart
  | succ m ih =>
    obtain ⟨i, hi⟩ := exists_rotation hm
    have hb := sumBoundsAfter_fit m (by omega)
    have hb' := sumBoundsAfter_fit (m + 1) hm
    have hsums := ih (by omega)
    rw [sumBoundsAfter_succ hi] at hb' ⊢
    obtain ⟨hx, hy⟩ := hsums.rotate_exact hb hb'
    rw [regsAfter_succ hi, hx, hy]
    exact hsums.rotate hb.1.le (turn_eq_one_or _) i

/-- Settles O40: the sum of the registers the rotations leave is within bounds above 0, so it does not wrap either. -/
theorem sumIsNeverNegative : Obligations.SumIsNeverNegative := by
  intro r
  obtain ⟨hlo, hhi⟩ := (holdSums_regsAfter r le_rfl).add
  obtain ⟨hpos, hfit⟩ := sumBoundsAfter_fit 17 le_rfl
  have hsum : (cordic r).1.toInt = (regsAfter r 17).x.toInt + (regsAfter r 17).y.toInt :=
    toInt_wrap (n := (regsAfter r 17).x.toInt + (regsAfter r 17).y.toInt) (by omega) (by omega)
  omega

/-! ## The angle left in `z` -/

/-- A word of the table, and the word 0 outside it, is not negative. -/
theorem atanhWord_nonneg (i : Nat) : 0 ≤ (atanhWord i).toInt := by
  rcases h : memReadAtanh i with _ | w
  · simp [atanhWord, h]
  · have htable : atanhTable.all (fun w => decide (0 ≤ w.toInt)) = true := rfl
    have hw := List.all_eq_true.1 htable w (List.mem_of_getElem? h)
    simpa [atanhWord, h] using hw

/-- What bounds the angle after a rotation at index `i`, if `b` does before it: the angle is turned towards 0 by the table
entry, and what overshoots 0 is at most the entry. -/
def angleBound (b : Int) (i : Nat) : Int := max (atanhWord i).toInt (b - (atanhWord i).toInt)

/-- A rotation of a bounded angle is exact, and leaves an angle within the next bound. -/
theorem rotate_z_exact {b : Int} {c : CordicRegs} (h : |c.z.toInt| ≤ b) (hb : b < 2 ^ 31) (i : Nat) :
    (rotate i c).z.toInt = c.z.toInt - turn c.z * (atanhWord i).toInt ∧
    |(rotate i c).z.toInt| ≤ angleBound b i := by
  have ha := atanhWord_nonneg i
  have ha' := BitVec.toInt_lt (x := atanhWord i)
  obtain ⟨hlo, hhi⟩ := abs_le.1 h
  have hbound : |c.z.toInt - turn c.z * (atanhWord i).toInt| ≤ angleBound b i := by
    rw [angleBound, abs_le]
    rcases turn_cases c.z with ⟨hz, ht⟩ | ⟨hz, ht⟩ <;> rw [ht] <;> omega
  have hfit : angleBound b i < 2 ^ 31 := max_lt ha' (by omega)
  obtain ⟨hlo', hhi'⟩ := abs_le.1 hbound
  have hexact : (rotate i c).z.toInt = c.z.toInt - turn c.z * (atanhWord i).toInt := by
    rw [rotate_eq_wrap]
    exact toInt_wrap (by omega) (by omega)
  exact ⟨hexact, hexact ▸ hbound⟩

/-- A bound on the angle left after the first `m` rotations; the residual 45422 starts from 45422·8192 (R118). -/
def angleBoundAfter (m : Nat) : Int := ((schedule 15 [4, 13]).take m).foldl angleBound 372097024

theorem angleBoundAfter_succ {m i : Nat} (h : (schedule 15 [4, 13])[m]? = some i) :
    angleBoundAfter (m + 1) = angleBound (angleBoundAfter m) i := by
  simp [angleBoundAfter, List.take_add_one, h]

theorem angleBoundAfter_fit : ∀ m ≤ 17, angleBoundAfter m < 2 ^ 31 := by decide

section Reachable
variable {r : RrWord} (hlo : -2 ≤ r.toInt) (hhi : r.toInt ≤ 45422)
include hlo hhi

theorem abs_z_regsAfter {m : Nat} (hm : m ≤ 17) : |(regsAfter r m).z.toInt| ≤ angleBoundAfter m := by
  induction m with
  | zero =>
    have hz : (regsAfter r 0).z.toInt = r.toInt * 8192 := toInt_wrap (n := r.toInt * 8192) (by omega) (by omega)
    have h0 : angleBoundAfter 0 = 372097024 := rfl
    rw [hz, h0, abs_le]
    omega
  | succ m ih =>
    obtain ⟨i, hi⟩ := exists_rotation hm
    rw [regsAfter_succ hi, angleBoundAfter_succ hi]
    exact (rotate_z_exact (ih (by omega)) (angleBoundAfter_fit m (by omega)) i).2

end Reachable

/-- Settles O38: the bounds on the sums and on the angle hold before the rotation and fit a word after it. -/
theorem noRotationWraps : Obligations.NoRotationWraps := by
  intro r hlo hhi m i hi
  have hm := lt_of_rotation hi
  have hb' := sumBoundsAfter_fit (m + 1) hm
  rw [sumBoundsAfter_succ hi] at hb'
  obtain ⟨hx, hy⟩ := (holdSums_regsAfter r hm.le).rotate_exact (sumBoundsAfter_fit m hm.le) hb'
  obtain ⟨hz, -⟩ := rotate_z_exact (abs_z_regsAfter hlo hhi hm.le) (angleBoundAfter_fit m hm.le) i
  exact ⟨hx, hy, hz⟩

/-- Settles O39: the bound on the angle after the seventeenth rotation is the last entry. -/
theorem residualAngleConverges : Obligations.ResidualAngleConverges := by
  intro r hlo hhi
  have hend : angleBoundAfter 17 = 16384 := by decide
  exact (abs_z_regsAfter hlo hhi le_rfl).trans_eq hend

end Sys2Proof.Machine

/-! PROOF. The events of the edge, one equation each, and what follows from them: the order of the events, idle edges, the
word placed for the next edge, requests while busy, the micro-program counter. Then `RECON`, the operands above 0, and the
transaction that `EVAL` starts, whose result is read off the invariant. -/

namespace Sys2Proof.Machine

/-! ## The events of the edge -/

section Step
variable {s : State}

theorem step_reset (hr : s.pins.rst = true) : step s = .next s.tick.resetEdge := by
  rw [step, State.event_reset hr]

/-- The accept, as the instruction `EVAL` of the word on `x_in` (R60, R131). -/
theorem step_eq_exec_eval (hr : s.pins.rst = false) (hb : s.busy = false) (hs : s.pins.start = true) :
    step s = exec (.eval s.pins.x_in) s.tick := by
  rw [step, State.event_start hr hb hs]

theorem step_idle (hr : s.pins.rst = false) (hb : s.busy = false) (hs : s.pins.start = false) :
    step s = .next s.tick := by
  rw [step, State.event_idle hr hb hs]

/-- Inputs that choose the same event give the same answer: the edge consumes both. -/
theorem step_congr_of_event_eq {p p' : PortInputs} (h : s.event p = s.event p') (later : List PortInputs) :
    step { s with inputs := p :: later } = step { s with inputs := p' :: later } := by
  have hpins (q : PortInputs) : { s with inputs := q :: later }.pins = q := rfl
  have hevent (q : PortInputs) : { s with inputs := q :: later }.event q = s.event q := rfl
  have htick (q : PortInputs) : { s with inputs := q :: later }.tick = { s with inputs := later, edge := s.edge + 1 } := rfl
  simp only [step, hpins, hevent, htick, h]

/-- No word of `UROM` decodes to `EVAL` (R61, R63). -/
theorem isMicroOperation_of_decodeMicro {w : MicroWord} {i : Instr} (h : decodeMicro w = .ok i) :
    isMicroOperation i = true :=
  isMicroOperation_iff.2 ⟨w, (encode_of_decodeMicro h).2⟩

end Step

/-- Settles O5: one equation for each event, in the order of R130. -/
theorem stepRunsTheEventOfTheEdge : Obligations.StepRunsTheEventOfTheEdge := by
  refine fun s => ⟨rfl, step_reset, fun hr hb _ hd => step_eq_exec hr hb hd, fun hr hb w hd => ?_, step_eq_exec_eval,
    step_idle⟩
  obtain rfl : w = s.fetch := DecodeError.reservedMicroop.inj (decodeMicro_eq_error hd)
  exact step_eq_refused hr hb hd

/-- Settles O6: the placed word is the fetched one, or the one on `x_in`. -/
theorem placedWordRunsNext : Obligations.PlacedWordRunsNext := by
  refine fun s w i => ⟨fun hd => ?_, step_eq_exec_eval rfl rfl rfl, fun a ha => Memory.read_write_other _ _ ha⟩
  have hf : (s.withFetchWord 8 w).fetch = BitVec.ofNat 8 w := Memory.read_write_same _ _ _
  exact step_eq_exec rfl rfl (hf ▸ hd)

/-! ## Idle edges -/

/-- Settles O9: each edge is `step_idle`, and `State.tick` changes no register and no store. -/
theorem idleHoldsEveryRegister : Obligations.IdleHoldsEveryRegister := by
  intro n
  induction n with
  | zero => exact fun s _ _ => ⟨s, rfl, fun _ => rfl, ⟨fun _ => rfl, rfl⟩, rfl⟩
  | succ n ih =>
    intro s hb hquiet
    obtain ⟨hr, hs⟩ := hquiet 0 n.succ_pos
    rw [← State.pins_eq_pinsAt] at hr hs
    obtain ⟨t, hrun, hreg, hstore, hout⟩ := ih s.tick hb fun m hm => by
      rw [State.pinsAt_tick]
      exact hquiet (m + 1) (Nat.succ_lt_succ hm)
    exact ⟨t, (core_run_succ (step_idle hr hb hs)).trans hrun, fun reg => (hreg reg).trans s.reg_tick, hstore, hout⟩

/-! ## `EVAL` at its edge -/

theorem exec_eval_of_idle {s : State} (hb : s.busy = false) (v : InWord) : exec (.eval v) s = .next (s.accept v) :=
  if_neg (by simp [hb])

theorem exec_eval_of_busy {s : State} (hb : s.busy = true) (v : InWord) : exec (.eval v) s = .next s := if_pos hb

/-- A busy block's event depends on `rst` alone (R135, R162). -/
theorem State.event_congr_of_busy {s : State} (hb : s.busy = true) {p p' : PortInputs} (h : p.rst = p'.rst) :
    s.event p = s.event p' := by
  rcases hr : p.rst with _ | _
  · rw [State.event_busy hr hb, State.event_busy (h ▸ hr) hb]
  · rw [State.event_reset hr, State.event_reset (h ▸ hr)]

/-- Settles O22: the two edges have the same event. -/
theorem requestWhileBusyIsLost : Obligations.RequestWhileBusyIsLost := fun _ p later hb =>
  ⟨exec_eval_of_busy hb p.x_in, step_congr_of_event_eq (State.event_congr_of_busy hb (by rfl)) later⟩

/-! ## The micro-program counter -/

/-- Settles O29, by the kinds of edge: among the micro-operations `RECON` alone ends the transaction, the others advance. -/
theorem counterMovesOnlyForward : Obligations.CounterMovesOnlyForward := by
  intro s t h hr
  rcases step_cases h with ⟨hr', -⟩ | ⟨-, hb, i, hd, hi⟩ | ⟨-, hb, hs, rfl⟩ | ⟨-, hb, hs, rfl⟩
  · simp [hr] at hr'
  · by_cases hne : i = .recon
    · subst hne
      cases hi
      simp [hb]
    · obtain ⟨htb, hupc⟩ := exec_continues hi (isMicroOperation_of_decodeMicro hd) hne
      simp_all
  · simp [hb, hs]
  · simp [hb, hs]

/-! ## `RECON` -/

section Reconstruct
variable {eo : OutWord} {k : KWord}

theorem toNat_reconstruct_of_neg (h : k.toInt < 0) :
    (reconstruct eo k).toNat = eo.toNat / 2 ^ (-k.toInt).toNat := by
  rw [reconstruct, if_pos h, lsr_toNat]

theorem reconstruct_of_zero (h : k.toInt = 0) : reconstruct eo k = eo := by
  rw [reconstruct, if_neg (by omega), if_neg (by omega)]

theorem toNat_reconstruct_of_pos (h : 0 < k.toInt) :
    (reconstruct eo k).toNat = eo.toNat * 2 ^ k.toInt.toNat % 2 ^ 24 := by
  rw [reconstruct, if_neg (by omega), if_pos h, shl_toNat]

/-- A shift by the word's width or more leaves nothing, in either direction (R124). -/
theorem reconstruct_eq_zero (h : k.toInt ≤ -24 ∨ 24 ≤ k.toInt) : reconstruct eo k = 0 := by
  refine BitVec.eq_of_toNat_eq ?_
  rcases h with h | h
  · have hpow : 2 ^ 24 ≤ 2 ^ (-k.toInt).toNat := Nat.pow_le_pow_right (by omega) (by omega)
    rw [toNat_reconstruct_of_neg (by omega)]
    exact Nat.div_eq_of_lt (eo.isLt.trans_le hpow)
  · have hpow : 2 ^ 24 ∣ 2 ^ k.toInt.toNat := pow_dvd_pow 2 (by omega)
    rw [toNat_reconstruct_of_pos (by omega)]
    exact Nat.mod_eq_zero_of_dvd (hpow.mul_left _)

end Reconstruct

/-- Settles O20: `RECON` delivers `reconstruct`, whose three branches are the shifts. -/
theorem reconScalesAndEnds : Obligations.ReconScalesAndEnds := by
  refine ⟨decode_encode (i := .recon) rfl, fun s => ⟨s.finish (reconstruct s.eo s.k), rfl, rfl, ⟨fun _ => rfl, rfl⟩, ?_⟩⟩
  exact ⟨toNat_reconstruct_of_neg, reconstruct_of_zero, toNat_reconstruct_of_pos, reconstruct_eq_zero⟩

/-! ## Operands above 0 -/

/-- Settles O41: the guard clamps such an operand to 0, and the result depends on the guarded operand alone. -/
theorem positiveOperandsSaturate : Obligations.PositiveOperandsSaturate := by
  intro v hv
  have hguard : guardedOperand v = guardedOperand 0x0000 := BitVec.eq_of_toInt_eq (by
    rw [toInt_guardedOperand, toInt_guardedOperand, min_eq_right hv.le]
    rfl)
  simp [evaluate, evaluateUnder, hguard]

/-! ## The transaction of `EVAL` -/

/-- A micro-operation that goes on leaves the ports and the accepted word as they are (R20). -/
theorem exec_keeps_ports {i : Instr} {s t : State} (h : exec i s = .next t) (hm : isMicroOperation i = true)
    (hne : i ≠ .recon) : t.outputs = s.outputs ∧ t.xin = s.xin := by
  rcases exec_cases h with ⟨rfl, hz, rfl⟩ | ⟨-, -, rfl⟩ | ⟨-, rfl⟩ | ⟨-, rfl⟩ | ⟨-, rfl⟩ | ⟨-, rfl⟩ | ⟨-, rfl⟩ |
    ⟨idx, -, -, rfl⟩ | ⟨-, rfl⟩ | ⟨rfl, -⟩ | ⟨v, rfl, -, -⟩ | ⟨v, rfl, -, -⟩ <;>
  simp_all [isMicroOperation, State.outputs]

/-- The first 24 entries of the micro-program are legal micro-operations that go on (R66). -/
theorem exists_entry_of_lt {n : Nat} (hn : n < 24) : ∃ i, defaultParams.program[n]? = some i ∧
    i.wf = true ∧ isMicroOperation i = true ∧ i ≠ .recon := by
  have hbody : ∀ i ∈ defaultParams.program.dropLast, i.wf = true ∧ isMicroOperation i = true ∧ i ≠ .recon := by decide
  have hlt : n < defaultParams.program.dropLast.length := hn
  refine ⟨_, ?_, hbody _ (List.getElem_mem hlt)⟩
  rw [List.getElem_dropLast]
  exact List.getElem?_eq_getElem _

section Transaction
variable {n k : Nat} {s t : State}

theorem AtEntry.goes_on (hs : AtEntry n (k + 1) s) (hn : n < 24) :
    ∃ t, step s = .next t ∧ AtEntry (n + 1) k t ∧ t.outputs = s.outputs ∧ t.xin = s.xin := by
  obtain ⟨i, hi, hwf, hm, hne⟩ := exists_entry_of_lt hn
  obtain ⟨t, ht⟩ := exec_answers_of_wf hwf s.tick
  exact ⟨t, (hs.step_eq_exec hi).trans ht, hs.next hm hne ht, exec_keeps_ports (s := s.tick) ht hm hne⟩

/-- Up to entry 24 the ports show what they showed after the accept. -/
theorem AtEntry.run (hs : AtEntry 0 (n + k) s) (hn : n ≤ 24) :
    ∃ u : State, Host.Core.run core n s = .next u ∧ AtEntry n k u ∧ u.outputs = s.outputs ∧ u.xin = s.xin := by
  induction n generalizing k with
  | zero => exact ⟨s, rfl, by rwa [Nat.zero_add] at hs, rfl, rfl⟩
  | succ n ih =>
    rw [Nat.succ_add_eq_add_succ] at hs
    obtain ⟨u, hrun, hu, hout, hx⟩ := ih hs (by omega)
    obtain ⟨t, ht, hnext, hout', hx'⟩ := hu.goes_on (by omega)
    exact ⟨t, (run_add core n 1 hrun).trans (core_run_succ ht), hnext, hout'.trans hout, hx'.trans hx⟩

theorem AtEntry.step_recon (hs : AtEntry 24 (k + 1) s) :
    step s = .next (s.tick.finish (reconstruct s.eo s.k)) :=
  hs.step_eq_exec (i := .recon) rfl

theorem Inv.of_run (hs : Inv s) (h : Host.Core.run core n s = .next t) : Inv t := by
  induction n generalizing s with
  | zero =>
    cases h
    exact hs
  | succ n ih =>
    obtain ⟨u, hu, hrun⟩ := exists_step_of_run_succ core h
    exact ih (invariantIsKept s u hs hu) hrun

theorem Inv.accept (hw : ThisHardware s) (v : InWord) : Inv (s.accept v) :=
  ⟨hw, by simp, fun _ => by simp [TransactionInProgress], by simp⟩

end Transaction

/-- Settles O23: 24 edges reach `RECON` with the ports unchanged, `RECON` sets `done`, and with `done` the invariant says
what `y_out` holds. -/
theorem evalDeliversEvaluate : Obligations.EvalDeliversEvaluate := by
  intro s v hw hb hr
  have hs : AtEntry 0 25 (s.accept v) := ⟨hw, rfl, rfl, hr⟩
  refine ⟨s.accept v, exec_eval_of_idle hb v, fun n hn => ?_, ?_⟩
  · have hsplit : AtEntry 0 (n + (25 - n)) (s.accept v) := by rwa [Nat.add_sub_cancel' hn.le]
    obtain ⟨u, hrun, -, hout, -⟩ := hsplit.run (by omega)
    exact ⟨u, hrun, hout⟩
  · obtain ⟨u, hrun, hu, -, hx⟩ := AtEntry.run (n := 24) (k := 1) hs le_rfl
    have hend := (run_add core 24 1 hrun).trans (core_run_succ hu.step_recon)
    obtain ⟨-, -, -, hresult⟩ := (Inv.accept hw v).of_run hend
    obtain ⟨hurom, hkinv⟩ := run_keeps_stores hend
    have hy := (hresult rfl).trans (congrArg evaluate hx)
    refine ⟨_, hend, ?_, hu.upc, hx, fun a => by rw [hurom]; rfl, hkinv⟩
    rw [State.outputs, hy]
    rfl

end Sys2Proof.Machine

/-! PROOF. Several instances: an interleaving of their clock edges gives each instance the run of its own edges, so what
holds of a run of one block holds of every instance of a system. -/

namespace Sys2Proof.Machine

/-! ## One instance alone -/

theorem clockTimes_fault (n : Nat) (f : Fault) : clockTimes n (.fault f) = .fault f := by
  induction n with
  | zero => rfl
  | succ n ih => exact ih

theorem clockTimes_refused (n : Nat) (r : Refusal) : clockTimes n (.refused r) = .refused r := by
  induction n with
  | zero => rfl
  | succ n ih => exact ih

/-- A run stops at the first fault. -/
theorem run_succ_of_fault (M : Host.Core) {n : Nat} {s : M.State} {f : M.Fault} (h : M.step s = .fault f) :
    M.run (n + 1) s = .fault f := by
  simp [Host.Core.run, h]

/-- A run stops at the first refusal. -/
theorem run_succ_of_refused (M : Host.Core) {n : Nat} {s : M.State} {r : M.Refusal} (h : M.step s = .refused r) :
    M.run (n + 1) s = .refused r := by
  simp [Host.Core.run, h]

/-- The edges of a running instance are a run of the machine. -/
theorem clockTimes_next (n : Nat) (s : State) : clockTimes n (.next s) = Host.Core.run core n s := by
  induction n generalizing s with
  | zero => rfl
  | succ n ih =>
    rw [clockTimes, clockOne]
    rcases hs : step s with t | f | r
    · exact (ih t).trans (core_run_succ hs).symm
    · exact (clockTimes_fault n f).trans (run_succ_of_fault core hs).symm
    · exact (clockTimes_refused n r).trans (run_succ_of_refused core hs).symm

/-! ## A system of instances -/

theorem getElem?_clockInstance_self (system : List Instance) (j : Nat) :
    (clockInstance system j)[j]? = (system[j]?).map clockOne :=
  List.getElem?_modify_eq ..

theorem getElem?_clockInstance_of_ne (system : List Instance) {n j : Nat} (h : n ≠ j) :
    (clockInstance system n)[j]? = system[j]? :=
  List.getElem?_modify_ne _ _ h

/-- Of an interleaving an instance sees its own edges alone (R153). -/
theorem getElem?_clockInstances (system : List Instance) (order : List Nat) (j : Nat) :
    (clockInstances system order)[j]? = (system[j]?).map (clockTimes (order.count j)) := by
  induction order generalizing system with
  | nil => exact Option.map_id_apply.symm
  | cons n order ih =>
    rw [clockInstances, List.foldl_cons, ← clockInstances, ih]
    by_cases h : n = j
    · subst h
      rw [getElem?_clockInstance_self, List.count_cons_self, Option.map_map]
      rfl
    · rw [getElem?_clockInstance_of_ne system h, List.count_cons_of_ne h]

/-- A running instance is where the run of its own edges ends. -/
theorem getElem?_clockInstances_of_run {system : List Instance} {order : List Nat} {j : Nat} {s t : State}
    (hj : system[j]? = some (.next s)) (h : Host.Core.run core (order.count j) s = .next t) :
    (clockInstances system order)[j]? = some (.next t) := by
  rw [getElem?_clockInstances, hj]
  exact congrArg some ((clockTimes_next _ s).trans h)

/-! ## The transaction a request starts -/

/-- The edge that accepts is the edge of `EVAL`, and 25 more deliver the result (R137). -/
theorem run_accept_delivers {s : State} (hw : ThisHardware s) (hb : s.busy = false)
    (hs : (s.pinsAt 0).start = true) (hr : NoReset s 26) :
    ∃ t : State, Host.Core.run core 26 s = .next t ∧ SameStore s t ∧
      t.outputs = { busy := false, done := true, y_out := evaluate (s.pinsAt 0).x_in } := by
  rw [← State.pins_eq_pinsAt] at hs ⊢
  obtain ⟨a, ha, -, t, hrun, hout, -, -, hstore⟩ :=
    evalDeliversEvaluate s.tick s.pins.x_in hw hb (noReset_tick hr)
  have hstep : step s = .next a := (step_eq_exec_eval (pins_rst_of_noReset hr) hb hs).trans ha
  exact ⟨t, (core_run_succ hstep).trans hrun, hstore, hout⟩

/-- Settles O48: an instance runs as if alone, so the invariant and the transaction of a single block are those of every
instance. -/
theorem instancesAreIndependent : Obligations.InstancesAreIndependent := by
  refine ⟨getElem?_clockInstances, fun system order j s hj => ⟨fun hinv => ?_, fun hw hb hs hr hcount => ?_⟩⟩
  · obtain ⟨t, hrun⟩ := invariantRulesOutRefusal (order.count j) s hinv
    exact ⟨t, getElem?_clockInstances_of_run hj hrun, hinv.of_run hrun⟩
  · obtain ⟨t, hrun, hstore, hout⟩ := run_accept_delivers hw hb hs hr
    exact ⟨t, getElem?_clockInstances_of_run hj (hcount ▸ hrun), hstore, hout⟩

end Sys2Proof.Machine

/-! PROOF. Reset and the hazards: what a reset edge clears, that no result comes after it without a new request, which
inputs an edge depends on, and which edge may write `y_out`. -/

namespace Sys2Proof.Machine

/-! ## The reset edge -/

/-- Settles O7: the answer is `State.resetEdge` of the passed edge, whose driven fields are literals. -/
theorem resetEdgeDrivesControlState : Obligations.ResetEdgeDrivesControlState := fun s hr =>
  ⟨s.tick.resetEdge, step_reset hr, rfl, rfl, rfl, rfl, ⟨fun _ => rfl, rfl⟩, rfl⟩

/-! ## A transaction abandoned -/

/-- The outputs after a reset edge (R156). -/
def clearedOutputs : PortOutputs := { busy := false, done := false, y_out := 0x000000 }

theorem State.outputs_resetEdge (s : State) : s.resetEdge.outputs = clearedOutputs := rfl

theorem State.pinsAt_resetEdge (s : State) (n : Nat) : s.resetEdge.pinsAt n = s.pinsAt n := State.pinsAt_congr rfl rfl n

/-- Without a request an edge leaves cleared outputs cleared: it is a reset or an idle edge (R130). -/
theorem step_keeps_cleared {s : State} (ho : s.outputs = clearedOutputs) (hs : s.pins.start = false) :
    ∃ t : State, step s = .next t ∧ t.outputs = clearedOutputs ∧ ∀ n, t.pinsAt n = s.pinsAt (n + 1) := by
  rcases hr : s.pins.rst with _ | _
  · have hb : s.busy = false := congrArg PortOutputs.busy ho
    exact ⟨s.tick, step_idle hr hb hs, ho, s.pinsAt_tick⟩
  · exact ⟨s.tick.resetEdge, step_reset hr, s.tick.outputs_resetEdge, fun n =>
      (s.tick.pinsAt_resetEdge n).trans (s.pinsAt_tick n)⟩

/-- Cleared outputs stay cleared until a request, whether reset is held or not. -/
theorem run_keeps_cleared {n : Nat} {s : State} (ho : s.outputs = clearedOutputs)
    (hs : ∀ m < n, (s.pinsAt m).start = false) :
    ∃ t : State, Host.Core.run core n s = .next t ∧ t.outputs = clearedOutputs := by
  induction n generalizing s with
  | zero => exact ⟨s, rfl, ho⟩
  | succ n ih =>
    have hfirst : s.pins.start = false := by
      rw [State.pins_eq_pinsAt]
      exact hs 0 n.succ_pos
    obtain ⟨u, hu, hou, hpins⟩ := step_keeps_cleared ho hfirst
    obtain ⟨t, hrun, hot⟩ := ih hou fun m hm => by
      rw [hpins]
      exact hs (m + 1) (Nat.succ_lt_succ hm)
    exact ⟨t, (core_run_succ hu).trans hrun, hot⟩

/-- Settles O8: the reset edge clears the outputs, and without a request they stay cleared. -/
theorem resetAbandonsTransaction : Obligations.ResetAbandonsTransaction := by
  intro n s _ hr hquiet
  rw [← State.pins_eq_pinsAt] at hr
  obtain ⟨t, hrun, hout⟩ := run_keeps_cleared s.tick.outputs_resetEdge fun m hm => by
    rw [State.pinsAt_resetEdge, State.pinsAt_tick]
    exact hquiet (m + 1) m.succ_pos hm
  exact ⟨t, (core_run_succ (step_reset hr)).trans hrun, hout⟩

/-! ## The inputs an edge depends on -/

/-- Without a request the event depends on `rst` alone (R130, R134). -/
theorem State.event_congr_of_no_request {s : State} {p p' : PortInputs} (h : p.rst = p'.rst) (hs : p.start = false)
    (hs' : p'.start = false) : s.event p = s.event p' := by
  rcases hr : p.rst with _ | _
  · rcases hb : s.busy with _ | _
    · rw [State.event_idle hr hb hs, State.event_idle (h ▸ hr) hb hs']
    · exact State.event_congr_of_busy hb h
  · rw [State.event_reset hr, State.event_reset (h ▸ hr)]

/-- Settles O10: outside an accept the two inputs choose the same event. -/
theorem inputsIgnoredOutsideAccept : Obligations.InputsIgnoredOutsideAccept := by
  intro s p p' later hrst hcases
  refine step_congr_of_event_eq ?_ later
  rcases hcases with hb | hr | ⟨hs, hs'⟩
  · exact State.event_congr_of_busy hb hrst.symm
  · rw [State.event_reset hr, State.event_reset (hrst.trans hr)]
  · exact State.event_congr_of_no_request hrst.symm hs hs'

/-! ## The edge that writes the result -/

/-- Settles O30, by the kinds of edge: an accept and an idle edge keep `y_out`, and of the micro-operations `RECON` alone
writes a port. -/
theorem onlyTheEndWritesTheResult : Obligations.OnlyTheEndWritesTheResult := by
  intro s t h hr hy
  rcases step_cases h with ⟨hr', -⟩ | ⟨-, hb, i, hd, hi⟩ | ⟨-, -, -, rfl⟩ | ⟨-, -, -, rfl⟩
  · simp [hr] at hr'
  · by_cases hne : i = .recon
    · subst hne
      cases hi
      exact ⟨hb, rfl, rfl⟩
    · obtain ⟨hout, -⟩ := exec_keeps_ports hi (isMicroOperation_of_decodeMicro hd) hne
      exact absurd (congrArg PortOutputs.y_out hout) hy
  · exact absurd rfl hy
  · exact absurd rfl hy

end Sys2Proof.Machine
